-- ==== Sys2Proof/Word.lean ====
section
/-! DEFINITION. The one width of the block: the 32-bit word of the port, of every register and of every ring cell (rules R10, R12, R71, R89). -/

namespace Sys2Proof

/-- A word of the port, of a register or of a ring cell (`WORD` of rule R10; rules R71 and R89). -/
abbrev Word := BitVec 32

/-- An IEEE 754 binary32 value carried in a word (rule R12). The arithmetic of rule R13 is in
`Sys2Proof/Machine/Float.lean`. -/
abbrev F32 := Word

end Sys2Proof
end

