-- ==== Sys2Proof/Config.lean ====
section
/-! DEFINITION. What an implementation fixes: the parameters of rule R10 and of `93_implementation_defined.md` Part 2 as one plain record, and the functions and values that the spec leaves open, as constants without a body. -/

namespace Sys2Proof

/-- The bits of a NaN that an arithmetic operation makes (`93_implementation_defined.md` I6: any quiet NaN).
The arguments are the state's free-value counter, the operation and the two operands.
Log entry 6. -/
opaque Config.nanBits : Nat → Nat → Word → Word → Word

/-- The bits of the NaN that a function of `NUM` returns on a NaN operand, a function of its operands alone
(rule R17). Log entry 7. -/
opaque Config.numNaN : Nat → Word → Word → Word

/-- `NUM.exp` where rule R17 does not fix it. Log entry 7. -/
opaque Config.exp : Word → Word
/-- `NUM.log10` where rule R17 does not fix it. Log entry 7. -/
opaque Config.log10 : Word → Word
/-- `NUM.pow` where rule R17 does not fix it. Log entry 7. -/
opaque Config.pow : Word → Word → Word
/-- `NUM.tan` where rule R17 does not fix it. Log entry 7. -/
opaque Config.tan : Word → Word
/-- `NUM.tanh` where rule R17 does not fix it. Log entry 7. -/
opaque Config.tanh : Word → Word
/-- `NUM.sin` where rule R17 does not fix it. Log entry 7. -/
opaque Config.sin : Word → Word
/-- `NUM.cos` where rule R17 does not fix it. Log entry 7. -/
opaque Config.cos : Word → Word

/-- An open curve of `softclip2` (rule R295), by the number a build gives it. Log entry 9. -/
opaque Config.softclip2 : Nat → Word → Word
/-- An open curve of `fdn_fb` (rules R10, R323), by the number a build gives it. Log entry 9. -/
opaque Config.fdnFb : Nat → Word → Word
/-- An open curve of `fdn_len_scale` (rules R10, R323), by the number a build gives it. Log entry 9. -/
opaque Config.fdnLenScale : Nat → Word → Word
/-- The reference length of FDN line `i`, for which the spec offers no value (rules R10, R323). Log entry 3. -/
opaque Config.fdnLenRef : Nat → Nat

/-- Which instance of an OPEN function of rule R10 a build has: the default the spec suggests, or another. -/
inductive Curve where
  /-- the default instance of rule R10 -/
  | standard
  /-- an instance the spec does not give; its values are the constants of `Config` -/
  | other (n : Nat)
  deriving DecidableEq, Repr

/-- The reference lengths of a reverb (rules R312, R323): stated by the build, or not stated by anyone. -/
inductive LenRef where
  /-- the lengths in samples at `REF_FS`, in order -/
  | given (lens : List Nat)
  /-- no value is stated: `Config.fdnLenRef` -/
  | unstated
  deriving DecidableEq, Repr

/-- The implementation parameters of rule R10 that a build fixes (`93_implementation_defined.md` Part 2, rule
R372 for the `xn` constants). They are held in the state so that every statement about all states is a
statement about all builds. Log entry 2. -/
structure Params where
  /-- `NCH`, number of audio channels, 1..16 -/
  nch : Nat
  /-- `NEQ`, number of EQ bands, 1..32 -/
  neq : Nat
  /-- `FS_MAX`, largest rate a RST accepts -/
  fsMax : F32
  /-- `LIM_LA_MAX_MS`, largest limiter lookahead -/
  limLaMaxMs : F32
  /-- `NAP`, Schroeder allpass count, 2..4 -/
  nap : Nat
  /-- `REF_FS`, the rate at which reverb lengths are stated -/
  refFs : F32
  /-- `RVS_COMB_REF[0..7]` -/
  rvsCombRef : List Nat
  /-- `RVS_AP_REF[0..NAP-1]` -/
  rvsApRef : List Nat
  /-- `FDN_LEN_REF[0..7]` -/
  fdnLenRef : LenRef
  /-- the instance of `fdn_len_scale` -/
  fdnLenScale : Curve
  /-- the instance of `fdn_fb` -/
  fdnFb : Curve
  /-- the instance of `softclip2` -/
  softclip2 : Curve
  /-- `XOVER_Q` -/
  xoverQ : F32
  /-- `SAT_SHELF_Q` -/
  satShelfQ : F32
  /-- `FTZ`, flush subnormal results to zero -/
  ftz : Bool
  /-- `XN_CLIP` -/
  xnClip : F32
  /-- `XN_PRE_REL` -/
  xnPreRel : F32
  /-- `XN_MUD_SLOPE_DB` -/
  xnMudSlopeDb : F32
  /-- `XN_MUD_REL` -/
  xnMudRel : F32
  /-- `XN_SCR_SLOPE` -/
  xnScrSlope : F32
  /-- `XN_SCR_MIN` -/
  xnScrMin : F32
  /-- `XN_SCR_REC` -/
  xnScrRec : F32
  /-- `XN_SILENCE` -/
  xnSilence : F32
  deriving DecidableEq, Repr

/-- The parameters together with the state's free-value counter: what an arithmetic operation may depend on
beside its operands (`FTZ` of rule R13, and the NaN bits of I6). -/
structure Ctx extends Params where
  /-- the free-value counter of the state (log entry 6) -/
  seed : Nat
  deriving DecidableEq, Repr

/-- The default record: the values the spec suggests in rule R10, rule R312 (the Schroeder lengths it offers) and
rule R372; `FDN_LEN_REF`, for which it offers none, is not stated. Log entries 2 and 3. -/
def Params.standard : Params where
  nch := 2
  neq := 4
  fsMax := 0x493B8000       -- 768000.0
  limLaMaxMs := 0x41200000  -- 10.0
  nap := 4
  refFs := 0x472C4400       -- 44100.0
  rvsCombRef := [1116, 1188, 1277, 1356, 1422, 1491, 1557, 1617]
  rvsApRef := [556, 441, 341, 225]
  fdnLenRef := .unstated
  fdnLenScale := .standard
  fdnFb := .standard
  softclip2 := .standard
  xoverQ := 0x3F3504F3      -- 0.70710678
  satShelfQ := 0x3F3504F3   -- 0.70710678
  ftz := false
  xnClip := 0x3F800000      -- 1.0
  xnPreRel := 0x3F666666    -- 0.9
  xnMudSlopeDb := 0x40C00000 -- 6.0
  xnMudRel := 0x3F666666    -- 0.9
  xnScrSlope := 0x3F000000  -- 0.5
  xnScrMin := 0x3E800000    -- 0.25
  xnScrRec := 0x3F666666    -- 0.9
  xnSilence := 0x358637BD   -- 1e-6

/-- A word that is finite and strictly positive as binary32. -/
def Params.finitePos (w : Word) : Bool := decide (0 < w.toNat) && decide (w.toNat < 0x7F800000)

/-- A word that is a finite number (either sign). -/
def Params.finite (w : Word) : Bool := decide (w.toNat % 0x80000000 < 0x7F800000)

/-- A finite word between `+0.0` and `1.0`. -/
def Params.unit (w : Word) : Bool := decide (w.toNat ≤ 0x3F800000)

/-- The constraints that a model may assume of a build (`93_implementation_defined.md` Part 2). -/
def Params.wf (p : Params) : Bool :=
  decide (1 ≤ p.nch) && decide (p.nch ≤ 16) && decide (1 ≤ p.neq) && decide (p.neq ≤ 32) &&
  decide (2 ≤ p.nap) && decide (p.nap ≤ 4) &&
  Params.finitePos p.fsMax && Params.finitePos p.refFs &&
  decide (p.limLaMaxMs.toNat < 0x7F800000) &&
  Params.finite p.xoverQ && Params.finite p.satShelfQ &&
  decide (p.rvsCombRef.length = 8) && p.rvsCombRef.all (fun n => decide (0 < n)) &&
  decide (p.rvsApRef.length = p.nap) && p.rvsApRef.all (fun n => decide (0 < n)) &&
  (match p.fdnLenRef with
   | .given l => decide (l.length = 8) && l.all (fun n => decide (0 < n))
   | .unstated => true) &&
  Params.finite p.xnClip && Params.unit p.xnPreRel && Params.finite p.xnMudSlopeDb && Params.unit p.xnMudRel &&
  Params.finite p.xnScrSlope && Params.finite p.xnScrMin && Params.unit p.xnScrRec && Params.finite p.xnSilence

end Sys2Proof
end

