-- ==== Sys2Proof/Machine/Float.lean ====
section
/-! DEFINITION. Arithmetic on `f32` (rules R12 to R15): every operation converts its operands to exact integers, computes exactly, and rounds once, to nearest, ties to even. -/

namespace Sys2Proof

/-! ### The parts of a binary32 word -/

/-- Exponent and fraction of a word as one number: the word with the sign bit cleared. -/
def F32.mag (a : F32) : Nat := a.toNat % 0x80000000

/-- The sign bit. -/
def F32.sign (a : F32) : Bool := a.msb

/-- A NaN (rule R12). -/
def F32.isNaN (a : F32) : Bool := decide (0x7F800000 < F32.mag a)

/-- An infinity. -/
def F32.isInf (a : F32) : Bool := decide (F32.mag a = 0x7F800000)

/-- A zero of either sign. -/
def F32.isZero (a : F32) : Bool := decide (F32.mag a = 0)

/-- Neither a NaN nor an infinity. -/
def F32.isFinite (a : F32) : Bool := decide (F32.mag a < 0x7F800000)

/-- The word with the sign bit `neg` and the magnitude bits `m` (`m < 2^31`). -/
def F32.ofParts (neg : Bool) (m : Nat) : F32 := BitVec.ofNat 32 ((if neg then 0x80000000 else 0) + m)

/-- The magnitude of a finite value as an exact count of `2^-149`, the smallest subnormal. -/
def F32.units (a : F32) : Nat :=
  if F32.mag a < 0x800000 then F32.mag a
  else (F32.mag a % 0x800000 + 0x800000) * 2 ^ (F32.mag a / 0x800000 - 1)

/-- A finite value as an exact signed count of `2^-149`. -/
def F32.signedUnits (a : F32) : Int := if F32.sign a then -(F32.units a : Int) else (F32.units a : Int)

/-- `+0.0` -/
def F32.zero : F32 := 0x00000000
/-- `-0.0` -/
def F32.negZero : F32 := 0x80000000
/-- `1.0` -/
def F32.one : F32 := 0x3F800000
/-- `2.0` -/
def F32.two : F32 := 0x40000000
/-- `+inf` -/
def F32.posInf : F32 := 0x7F800000
/-- `-inf` -/
def F32.negInf : F32 := 0xFF800000

/-- A quiet NaN with the sign and the payload of `x`. -/
def F32.quiet (x : Word) : F32 :=
  BitVec.ofNat 32 (x.toNat / 0x80000000 * 0x80000000 + 0x7FC00000 + x.toNat % 0x400000)

/-! ### Rounding (rule R13) -/

/-- `n / d` to the nearest integer, ties to even. -/
def roundDiv (n d : Nat) : Nat :=
  if 2 * (n % d) < d then n / d
  else if d < 2 * (n % d) then n / d + 1
  else n / d + n / d % 2

/-- The magnitude bits of the binary32 value nearest to `n / d` units of `2^-149`, ties to even. The quantum is
`2^k` units, with `k = 0` for subnormals; a carry into the next binade, and past the largest finite value into
the infinity, comes out of the encoding. -/
def roundMag (n d : Nat) : Nat :=
  min 0x7F800000 ((Nat.log2 (n / d) - 23) * 0x800000 + roundDiv n (d * 2 ^ (Nat.log2 (n / d) - 23)))

/-- The rounded value of `± n / d` units, a subnormal result replaced by a zero of its sign when `ftz` is set. -/
def roundPack (ftz neg : Bool) (n d : Nat) : F32 :=
  if ftz && decide (roundMag n d < 0x800000) then F32.ofParts neg 0 else F32.ofParts neg (roundMag n d)

/-! ### Sign operations and comparisons (rules R13, R14): no rounding, no NaN made -/

/-- `-a` flips the sign bit (rule R13). -/
def F32.neg (a : F32) : F32 := a ^^^ 0x80000000

/-- `fabs(a)`: the sign bit cleared (rule R14). -/
def F32.abs (a : F32) : F32 := a &&& 0x7FFFFFFF

/-- A number in the order of the IEEE comparisons: `-0.0` and `+0.0` are equal. -/
def F32.key (a : F32) : Int := if F32.sign a then -(F32.mag a : Int) else (F32.mag a : Int)

/-- `a < b`, false when an operand is a NaN (rule R13). -/
def F32.lt (a b : F32) : Bool := !F32.isNaN a && !F32.isNaN b && decide (F32.key a < F32.key b)

/-- `a <= b`, false when an operand is a NaN (rule R13). -/
def F32.le (a b : F32) : Bool := !F32.isNaN a && !F32.isNaN b && decide (F32.key a ≤ F32.key b)

/-- `fmax(a, b) = if a > b then a else b` (rule R14). -/
def F32.fmax (a b : F32) : F32 := if F32.lt b a then a else b

/-- `fmin(a, b) = if a < b then a else b` (rule R14). -/
def F32.fmin (a b : F32) : F32 := if F32.lt a b then a else b

/-- `clamp(v, lo, hi) = fmin(fmax(v, lo), hi)` (rule R14). -/
def F32.clamp (v lo hi : F32) : F32 := F32.fmin (F32.fmax v lo) hi

/-! ### The four operations (rule R13) -/

/-- The NaN that operation number `op` makes of `a` and `b`: any quiet NaN (I6; log entry 6). -/
def Ctx.nan (p : Ctx) (op : Nat) (a b : F32) : F32 := F32.quiet (Config.nanBits p.seed op a b)

/-- `a + b` on finite values: the exact sum rounded; an exact zero is `+0.0` unless both operands are negative. -/
def Ctx.addFinite (p : Ctx) (a b : F32) : F32 :=
  if F32.signedUnits a + F32.signedUnits b = 0 then F32.ofParts (F32.sign a && F32.sign b) 0
  else roundPack p.ftz (decide (F32.signedUnits a + F32.signedUnits b < 0))
    (F32.signedUnits a + F32.signedUnits b).natAbs 1

/-- `a + b` (rule R13). -/
def Ctx.add (p : Ctx) (a b : F32) : F32 :=
  if F32.isNaN a || F32.isNaN b then p.nan 0 a b
  else if F32.isInf a then (if F32.isInf b && (F32.sign a != F32.sign b) then p.nan 0 a b else a)
  else if F32.isInf b then b
  else p.addFinite a b

/-- `a - b` is `a + (-b)` (rule R13). -/
def Ctx.sub (p : Ctx) (a b : F32) : F32 := p.add a (F32.neg b)

/-- `a * b` (rule R13). -/
def Ctx.mul (p : Ctx) (a b : F32) : F32 :=
  if F32.isNaN a || F32.isNaN b then p.nan 1 a b
  else if F32.isInf a || F32.isInf b then
    (if F32.isZero a || F32.isZero b then p.nan 1 a b
     else F32.ofParts (F32.sign a != F32.sign b) 0x7F800000)
  else roundPack p.ftz (F32.sign a != F32.sign b) (F32.units a * F32.units b) (2 ^ 149)

/-- `a / b` (rule R13). -/
def Ctx.div (p : Ctx) (a b : F32) : F32 :=
  if F32.isNaN a || F32.isNaN b then p.nan 2 a b
  else if F32.isInf a then
    (if F32.isInf b then p.nan 2 a b else F32.ofParts (F32.sign a != F32.sign b) 0x7F800000)
  else if F32.isInf b then F32.ofParts (F32.sign a != F32.sign b) 0
  else if F32.isZero b then
    (if F32.isZero a then p.nan 2 a b else F32.ofParts (F32.sign a != F32.sign b) 0x7F800000)
  else roundPack p.ftz (F32.sign a != F32.sign b) (F32.units a * 2 ^ 149) (F32.units b)

/-! ### Floor and the conversions (rule R14) -/

/-- `floor(a)`: the largest integral value not above `a`; a NaN, an infinity and a zero are themselves (log entry
11 for the sign of a zero). -/
def F32.floor (a : F32) : F32 :=
  if F32.isFinite a && !F32.isZero a then
    F32.ofParts (decide (F32.signedUnits a < 0)) (roundMag ((F32.signedUnits a / 2 ^ 149).natAbs * 2 ^ 149) 1)
  else a

/-- `to_u32(a)`: truncated toward zero; 0 for a NaN or a negative value, all ones from `2^32` on. -/
def F32.toU32 (a : F32) : Word :=
  if F32.isNaN a || F32.sign a then 0
  else if F32.isInf a then 0xFFFFFFFF
  else if 2 ^ 32 ≤ F32.units a / 2 ^ 149 then 0xFFFFFFFF
  else BitVec.ofNat 32 (F32.units a / 2 ^ 149)

/-- `to_f32(n)`: rounded to nearest even. -/
def F32.ofNat (n : Nat) : F32 := F32.ofParts false (roundMag (n * 2 ^ 149) 1)

/-! ### The correctly rounded square root (rule R17) -/

/-- The integer square root of `n`, bit by bit from bit `i - 1` down, on top of the bits already in `r`. -/
def isqrtFrom (n : Nat) : Nat → Nat → Nat
  | 0, r => r
  | i + 1, r => if (r + 2 ^ i) * (r + 2 ^ i) ≤ n then isqrtFrom n i (r + 2 ^ i) else isqrtFrom n i r

/-- The integer square root of `n < 2^428`. -/
def isqrt (n : Nat) : Nat := isqrtFrom n 214 0

/-- The square root of a finite positive value: the integer root of `units * 2^149` with half a unit added when it
is not exact, so that it rounds as the real root does. -/
def sqrtMag (u : Nat) : Nat :=
  roundMag (2 * isqrt (u * 2 ^ 149) + (if isqrt (u * 2 ^ 149) * isqrt (u * 2 ^ 149) = u * 2 ^ 149 then 0 else 1)) 2

end Sys2Proof
end

