-- ==== Sys2Proof/Machine/Num.lean ====
section
/-! DEFINITION. The numerics record `NUM` (rules R16, R17): the values that rule R17 fixes, the bounds it requires, and the constants of `Config` for everything else; the named constants (rule R18), the dB conversions (rule R16), and the open curves with their required properties (rules R295, R323). -/

namespace Sys2Proof

/-! ### Literals: the binary32 value nearest to each decimal of a rule (rule R13) -/

/-- The magnitude bits of the binary32 value nearest to the decimal `n / d`. -/
def F32.nearest (n d : Nat) : Nat := roundMag (n * 2 ^ 149) d

/-- `0.5` -/
def F32.half : F32 := 0x3F000000
/-- `3.0` -/
def F32.three : F32 := 0x40400000
/-- `4.0` -/
def F32.four : F32 := 0x40800000
/-- `6.0` -/
def F32.six : F32 := 0x40C00000
/-- `8.0` -/
def F32.eight : F32 := 0x41000000
/-- `10.0` -/
def F32.ten : F32 := 0x41200000
/-- `12.0` -/
def F32.twelve : F32 := 0x41400000
/-- `20.0` -/
def F32.twenty : F32 := 0x41A00000
/-- `40.0` -/
def F32.forty : F32 := 0x42200000
/-- `50.0` -/
def F32.fifty : F32 := 0x42480000
/-- `90.0` -/
def F32.ninety : F32 := 0x42B40000
/-- `100.0` -/
def F32.hundred : F32 := 0x42C80000
/-- `200.0` -/
def F32.twoHundred : F32 := 0x43480000
/-- `1000.0` -/
def F32.thousand : F32 := 0x447A0000
/-- `PI`, bits `0x40490FDB` (rule R18) -/
def F32.pi : F32 := 0x40490FDB
/-- `INV_SQRT8`, bits `0x3EB504F3` (rule R18) -/
def F32.invSqrt8 : F32 := 0x3EB504F3

/-! ### The functions of `NUM` (rule R17) -/

/-- The NaN that function number `f` of `NUM` returns on a NaN operand. -/
def Num.nan (f : Nat) (a b : F32) : F32 := F32.quiet (Config.numNaN f a b)

/-- Whether `exp` underflows at the negative `x`: the real `e^x` is below `2^-126`, the smallest normal number, from
`x = -87.33655` (bits `0xC2AEAC50`) down. Rule R17 says `underflow` and not where it begins; log entry 7. -/
def expUnderflows (x : F32) : Bool := decide (0x42AEAC50 ≤ F32.mag x)

/-- `NUM.exp`: `exp(-inf) = +0.0`, `exp(±0.0) = 1.0`, and `0 < exp(x) < 1` for a finite negative `x`, where only an `x` at
which it underflows may give `+0.0` (log entry 7). -/
def Num.exp (x : F32) : F32 :=
  if F32.isNaN x then Num.nan 0 x 0
  else if x = F32.negInf then F32.zero
  else if F32.isZero x then F32.one
  else if F32.sign x then
    (if F32.lt F32.zero (Config.exp x) && F32.lt (Config.exp x) F32.one then Config.exp x
     else if expUnderflows x then F32.zero
     else 0x3F7FFFFF)
  else Config.exp x

/-- `NUM.log10`: `log10(1.0) = +0.0`, `log10(+0.0) = -inf`. -/
def Num.log10 (x : F32) : F32 :=
  if F32.isNaN x then Num.nan 1 x 0
  else if x = F32.one then F32.zero
  else if x = F32.zero then F32.negInf
  else Config.log10 x

/-- `NUM.pow(b, e)`: `pow(b, ±0.0) = 1.0` for every `b` (log entry 8 for a NaN `b`), and `pow(10.0, x) > 0` for finite
`x`. -/
def Num.pow (b e : F32) : F32 :=
  if F32.isZero e then F32.one
  else if F32.isNaN b || F32.isNaN e then Num.nan 2 b e
  else if b = F32.ten && F32.isFinite e then
    (if F32.lt F32.zero (Config.pow b e) then Config.pow b e else 0x00000001)
  else Config.pow b e

/-- `NUM.tan`: `tan(±0.0) = ±0.0`. -/
def Num.tan (x : F32) : F32 :=
  if F32.isNaN x then Num.nan 3 x 0 else if F32.isZero x then x else Config.tan x

/-- `NUM.tanh`: `tanh(±0.0) = ±0.0`, `|tanh(x)| <= 1.0`. -/
def Num.tanh (x : F32) : F32 :=
  if F32.isNaN x then Num.nan 4 x 0
  else if F32.isZero x then x
  else if F32.le (F32.abs (Config.tanh x)) F32.one then Config.tanh x
  else F32.one

/-- `NUM.sin`: `sin(±0.0) = ±0.0`. -/
def Num.sin (x : F32) : F32 :=
  if F32.isNaN x then Num.nan 5 x 0 else if F32.isZero x then x else Config.sin x

/-- `NUM.cos`: `cos(±0.0) = 1.0`. -/
def Num.cos (x : F32) : F32 :=
  if F32.isNaN x then Num.nan 6 x 0 else if F32.isZero x then F32.one else Config.cos x

/-- `NUM.sqrt`: the IEEE correctly rounded square root. -/
def Num.sqrt (x : F32) : F32 :=
  if F32.isNaN x then Num.nan 7 x 0
  else if F32.isZero x then x
  else if F32.sign x then Num.nan 7 x 0
  else if F32.isInf x then x
  else F32.ofParts false (sqrtMag (F32.units x))

/-! ### The dB conversions (rule R16) -/

/-- `db2lin(d) = NUM.pow(10.0, d / 20.0)` -/
def Ctx.db2lin (p : Ctx) (d : F32) : F32 := Num.pow F32.ten (p.div d F32.twenty)

/-- `lin2db(v) = 20.0 * NUM.log10(v)` -/
def Ctx.lin2db (p : Ctx) (v : F32) : F32 := p.mul F32.twenty (Num.log10 v)

/-! ### The open curves (rules R10, R295, R323) -/

/-- The greatest of `0` and `f 1`, …, `f n`: what makes a curve monotone, and leaves a monotone one as it is. -/
def runningMax (f : Nat → Nat) : Nat → Nat
  | 0 => 0
  | n + 1 => max (runningMax f n) (f (n + 1))

/-- Curve `n` of `softclip2` on a positive operand, by magnitude bits: between `±0.0` and `2.0`, and non-decreasing
(rule R295). The bits of non-negative values rise with the values, so the greatest value up to `v` has the greatest
bits. The sign of a zero result is the curve's. -/
def softclip2Pos (n : Nat) (v : F32) : F32 :=
  let m := runningMax (fun k => min 0x40000000 (F32.mag (Config.softclip2 n (BitVec.ofNat 32 k)))) (F32.mag v)
  F32.ofParts (m == 0 && F32.sign (Config.softclip2 n v)) m

/-- `softclip2` (rule R295): the default is the hard clamp; another curve is odd, keeps a zero, stays within `±2.0` and
is monotone non-decreasing. Its value on a NaN is open, but for the default, which gives `-2.0`. Log entry 9. -/
def Ctx.softclip (p : Ctx) (v : F32) : F32 :=
  match p.softclip2 with
  | .standard => F32.clamp v (F32.neg F32.two) F32.two
  | .other n =>
    if F32.isNaN v then Config.softclip2 n v
    else if F32.isZero v then v
    else if F32.sign v then F32.neg (softclip2Pos n (F32.neg v))
    else softclip2Pos n v

/-- `fdn_fb` (rules R10, R323): the default `0.80 + (0.19 * s)`, or another function with values in `0.80..0.99`. -/
def Ctx.fdnGain (p : Ctx) (s : F32) : F32 :=
  match p.fdnFb with
  | .standard => p.add 0x3F4CCCCD (p.mul 0x3E428F5C s)
  | .other n =>
    if F32.le 0x3F4CCCCD (Config.fdnFb n s) && F32.le (Config.fdnFb n s) 0x3F7D70A4 then Config.fdnFb n s
    else 0x3F4CCCCD

/-- `fdn_len_scale` (rules R10, R323): the default `0.25 + (0.75 * s)`, or another function with positive values. -/
def Ctx.fdnScale (p : Ctx) (s : F32) : F32 :=
  match p.fdnLenScale with
  | .standard => p.add 0x3E800000 (p.mul 0x3F400000 s)
  | .other n => if F32.lt F32.zero (Config.fdnLenScale n s) then Config.fdnLenScale n s else F32.one

/-- `FDN_LEN_REF[i]`, a positive integer (rules R10, R323; log entry 3). -/
def Ctx.fdnLenRefAt (p : Ctx) (i : Nat) : Nat :=
  match p.fdnLenRef with
  | .given lens => lens.getD i 1
  | .unstated => max 1 (Config.fdnLenRef i)

end Sys2Proof
end

