-- ==== Sys2Proof/Syntax.lean ====
section
/-! DEFINITION. The commands of the block, whole: one constructor of `Instr` per row of the opcode map (rule R116), with the small fields of the command word (rule R111) and the operand words (rule R110) as arguments. -/

namespace Sys2Proof

/-- The units of rule R31, in UNIT order. -/
inductive UnitId where
  | env | bq | svf | gate | agc | deess | comp | fet | sat | pitch | dly | rvs | fdn | wid | os | lim | xn | pipe
  deriving DecidableEq, Repr

/-- The operations of rule R112 (OP codes 0 to 5). -/
inductive Op where
  | rst | cfg | proc | aux | rd | wr
  deriving DecidableEq, Repr

/-- The sub-operations of PIPE AUX (rule R115). -/
inductive PipeAux where
  | begin | finish | deinit | save | restore
  deriving DecidableEq, Repr

/-- `BQ.TYPE` (rules R38, R114). -/
inductive BqType where
  | lowShelf | highShelf | peaking | lowPass | highPass
  deriving DecidableEq, Repr

/-- `SVF.TYPE` (rules R39, R114). -/
inductive SvfType where
  | highPass | peaking | lowPass
  deriving DecidableEq, Repr

/-- `SAT.TYPE` (rules R45, R114). -/
inductive SatType where
  | cubic | tanh
  deriving DecidableEq, Repr

/-- A command of rule R116. `ch` is the CH field, `idx` the IDX field, `reg` the register number that RD and WR
carry in MODE; every other argument is an operand word in port order, or a MODE code of rule R114. -/
inductive Instr where
  /-- `ENV.RST fs` (R151) -/
  | envRst (fs : Word)
  /-- `ENV.CFG tAttack_s, tRelease_s` (R152) -/
  | envCfg (tAtt tRel : Word)
  /-- `ENV.PROC ch inputAbs` (R154) -/
  | envProc (ch : BitVec 4) (x : Word)
  /-- `BQ.RST fs` (R171) -/
  | bqRst (fs : Word)
  /-- `BQ.CFG idx mode=type freq, Q, gainDb` (R172) -/
  | bqCfg (idx : BitVec 8) (type : BqType) (freq q gainDb : Word)
  /-- `BQ.PROC ch idx x` (R176) -/
  | bqProc (ch : BitVec 4) (idx : BitVec 8) (x : Word)
  /-- `BQ.GOFF idx offsetDb` (R177) -/
  | bqGoff (idx : BitVec 8) (offsetDb : Word)
  /-- `SVF.RST fs` (R181) -/
  | svfRst (fs : Word)
  /-- `SVF.CFG idx mode=type freq, Q, gainDb` (R182) -/
  | svfCfg (idx : BitVec 8) (type : SvfType) (freq q gainDb : Word)
  /-- `SVF.PROC ch idx x` (R185) -/
  | svfProc (ch : BitVec 4) (idx : BitVec 8) (x : Word)
  /-- `SVF.GOFF idx offsetDb` (R186) -/
  | svfGoff (idx : BitVec 8) (offsetDb : Word)
  /-- `GATE.RST fs` (R201) -/
  | gateRst (fs : Word)
  /-- `GATE.CFG` (R202) -/
  | gateCfg (threshDb rangeDb attackMs holdMs releaseMs hystDb : Word)
  /-- `GATE.PROC ch x` (R204) -/
  | gateProc (ch : BitVec 4) (x : Word)
  /-- `AGC.RST fs` (R211) -/
  | agcRst (fs : Word)
  /-- `AGC.CFG` (R212) -/
  | agcCfg (targetDb rangeDb attackMs releaseMs : Word)
  /-- `AGC.PROC ch x` (R214) -/
  | agcProc (ch : BitVec 4) (x : Word)
  /-- `AGC.EXT mode=extMode externalGainDb` (R213) -/
  | agcExt (extMode : Bool) (gainDb : Word)
  /-- `DEESS.RST fs` (R219) -/
  | deessRst (fs : Word)
  /-- `DEESS.CFG` (R220) -/
  | deessCfg (freq threshDb ratio attackMs releaseMs maxRedDb : Word)
  /-- `DEESS.PROC ch x` (R222) -/
  | deessProc (ch : BitVec 4) (x : Word)
  /-- `COMP.RST fs` (R227) -/
  | compRst (fs : Word)
  /-- `COMP.CFG` (R228) -/
  | compCfg (threshDb ratio kneeDb attackMs releaseMs makeupDb : Word)
  /-- `COMP.PROC ch x` (R231) -/
  | compProc (ch : BitVec 4) (x : Word)
  /-- `FET.RST fs` (R237) -/
  | fetRst (fs : Word)
  /-- `FET.CFG mode=autoMakeup` (R238) -/
  | fetCfg (autoMakeup : Bool) (inputDb ratio attackMs releaseMs : Word)
  /-- `FET.PROC ch x` (R242) -/
  | fetProc (ch : BitVec 4) (x : Word)
  /-- `FET.THOFF offsetDb` (R241) -/
  | fetThoff (offsetDb : Word)
  /-- `SAT.RST fs` (R261) -/
  | satRst (fs : Word)
  /-- `SAT.CFG mode=type drive` (R263) -/
  | satCfg (type : SatType) (drive : Word)
  /-- `SAT.PROC ch x` (R265) -/
  | satProc (ch : BitVec 4) (x : Word)
  /-- `SAT.DSCALE scale` (R264) -/
  | satDscale (scale : Word)
  /-- `PITCH.RST fs` (R281) -/
  | pitchRst (fs : Word)
  /-- `PITCH.CFG amount, windowMs` (R283) -/
  | pitchCfg (amount windowMs : Word)
  /-- `PITCH.PROC ch x` (R285) -/
  | pitchProc (ch : BitVec 4) (x : Word)
  /-- `DLY.RST fs` (R291) -/
  | dlyRst (fs : Word)
  /-- `DLY.CFG timeMs, feedback, mix` (R292) -/
  | dlyCfg (timeMs feedback mix : Word)
  /-- `DLY.PROC ch x` (R297) -/
  | dlyProc (ch : BitVec 4) (x : Word)
  /-- `RVS.RST fs` (R311) -/
  | rvsRst (fs : Word)
  /-- `RVS.CFG room, damp, mix` (R313) -/
  | rvsCfg (room damp mix : Word)
  /-- `RVS.PROC ch x` (R314) -/
  | rvsProc (ch : BitVec 4) (x : Word)
  /-- `FDN.RST fs` (R321) -/
  | fdnRst (fs : Word)
  /-- `FDN.CFG size, damp, mix` (R322) -/
  | fdnCfg (size damp mix : Word)
  /-- `FDN.PROC ch x` (R325) -/
  | fdnProc (ch : BitVec 4) (x : Word)
  /-- `WID.RST fs` (R271) -/
  | widRst (fs : Word)
  /-- `WID.CFG mode=monoBass width, bassFreq` (R272) -/
  | widCfg (monoBass : Bool) (width bassFreq : Word)
  /-- `WID.PROC ch=2p L, R` (R273) -/
  | widProc (ch : BitVec 4) (l r : Word)
  /-- `OS.RST` (R341) -/
  | osRst
  /-- `OS.UP ch x` (R344) -/
  | osUp (ch : BitVec 4) (x : Word)
  /-- `OS.DOWN ch u0, u1, u2, u3` (R345) -/
  | osDown (ch : BitVec 4) (u0 u1 u2 u3 : Word)
  /-- `LIM.RST fs` (R351) -/
  | limRst (fs : Word)
  /-- `LIM.CFG ceilingDb, releaseMs, lookaheadMs` (R352) -/
  | limCfg (ceilingDb releaseMs lookaheadMs : Word)
  /-- `LIM.PROC ch x` (R354) -/
  | limProc (ch : BitVec 4) (x : Word)
  /-- `XN.RST fs` (R371) -/
  | xnRst (fs : Word)
  /-- `XN.CFG` (R373) -/
  | xnCfg (targetRmsDb fMudLo fMudHi fCoreLo fCoreHi fScrLo fScrHi : Word)
  /-- `XN.ACC ch x` (R374) -/
  | xnAcc (ch : BitVec 4) (x : Word)
  /-- `XN.ANALYZE` (R375) -/
  | xnAnalyze
  /-- `PIPE.RST mode=os fs` (R386) -/
  | pipeRst (osEn : Bool) (fs : Word)
  /-- `PIPE.CFG en, sel, eqKind, eqBandEn, eqMudBand` (R387) -/
  | pipeCfg (en sel eqKind eqBandEn eqMudBand : Word)
  /-- `PIPE.FRAME x[0] .. x[NCH-1]` (R389) -/
  | pipeFrame (xs : List Word)
  /-- `PIPE.BEGIN` (R393) -/
  | pipeBegin
  /-- `PIPE.END` (R394) -/
  | pipeEnd
  /-- `PIPE.DEINIT` (R396) -/
  | pipeDeinit
  /-- `PIPE.SAVE` (R404) -/
  | pipeSave
  /-- `PIPE.RESTORE n, w[0] .. w[n-1]` (R405) -/
  | pipeRestore (n : Word) (ws : List Word)
  /-- `RD UNIT.REG ch idx` (R400) -/
  | rd (unit : UnitId) (ch : BitVec 4) (idx : BitVec 8) (reg : BitVec 8)
  /-- `WR UNIT.REG ch idx value` (R401) -/
  | wr (unit : UnitId) (ch : BitVec 4) (idx : BitVec 8) (reg : BitVec 8) (value : Word)
  deriving DecidableEq, Repr

end Sys2Proof
end

