-- ==== Sys2Proof/Machine/State.lean ====
section
/-! DEFINITION. The state of the block as plain data (rule R30): the register file of each unit (rules R37 to R54, R66), the ring memories (rule R81), the lifecycle flags (rule R33), the port (rule R110), the build, and the power-on state (rule R451). -/

namespace Sys2Proof.Machine

/-! ### Ring memories -/

/-- One cell of a ring memory: its number and its word (rules R80, R89). -/
abbrev MemCell := Nat × Word

/-- A ring memory of rule R81: the capacity that the last RST gave it, and its cells in canonical form: rising
numbers, and no cell that holds what an unlisted cell reads as. Log entry 5. -/
structure Memory where
  /-- `cap(M)` -/
  cap : Nat
  /-- the cells that do not read as `+0.0` -/
  cells : List MemCell
  deriving DecidableEq, Repr

/-- A memory before the first RST: no size (I18 of `93_implementation_defined.md`). -/
def Memory.unsized : Memory := ⟨0, []⟩

/-! ### Lifecycle -/

/-- The flags `ACTIVE` and `CONFIGURED` of `UFLAGS`, and `FS_EFF` (rule R33). -/
structure Life where
  active : Bool
  configured : Bool
  fsEff : F32
  deriving DecidableEq, Repr

/-- At power-on a unit is neither active nor configured (rule R451). `FS_EFF` holds no value then: log entry 1. -/
def Life.off : Life := ⟨false, false, 0⟩

/-! ### ENV (rule R37) -/

structure EnvP where
  tAtt : F32
  tRel : F32
  deriving DecidableEq, Repr

structure EnvC where
  a : F32
  r : F32
  deriving DecidableEq, Repr

structure Env where
  life : Life
  P : EnvP
  C : EnvC
  /-- `ENVELOPE`, one per channel -/
  envelope : List F32
  deriving DecidableEq, Repr

/-! ### BQ (rule R38) -/

structure BqP where
  type : BqType
  freq : F32
  q : F32
  gainDb : F32
  deriving DecidableEq, Repr

/-- `B0, B1, B2, A1, A2` of a biquad (BQ, and the tone filters of SAT). -/
structure BqC where
  b0 : F32
  b1 : F32
  b2 : F32
  a1 : F32
  a2 : F32
  deriving DecidableEq, Repr

/-- `X1, X2, Y1, Y2` of a biquad. -/
structure BqTaps where
  x1 : F32
  x2 : F32
  y1 : F32
  y2 : F32
  deriving DecidableEq, Repr

/-- One instance of BQ. -/
structure Bq where
  life : Life
  P : BqP
  C : BqC
  taps : List BqTaps
  gainOffDb : F32
  deriving DecidableEq, Repr

/-! ### SVF (rule R39) -/

structure SvfP where
  type : SvfType
  freq : F32
  q : F32
  gainDb : F32
  deriving DecidableEq, Repr

structure SvfC where
  g : F32
  r : F32
  d : F32
  ak : F32
  deriving DecidableEq, Repr

structure SvfS where
  s1 : F32
  s2 : F32
  deriving DecidableEq, Repr

/-- One instance of SVF. -/
structure Svf where
  life : Life
  P : SvfP
  C : SvfC
  ch : List SvfS
  gainOffDb : F32
  deriving DecidableEq, Repr

/-! ### GATE (rule R40) -/

/-- `GATE.STATE` (rule R68): 0 `Closed`, 1 `Open`. -/
inductive GateState where
  | closed | opened
  deriving DecidableEq, Repr

structure GateP where
  threshDb : F32
  rangeDb : F32
  attackMs : F32
  holdMs : F32
  releaseMs : F32
  hystDb : F32
  deriving DecidableEq, Repr

structure GateC where
  openTh : F32
  closeTh : F32
  rangeF : F32
  a : F32
  r : F32
  holdSamples : Word
  deriving DecidableEq, Repr

structure GateS where
  envelope : F32
  state : GateState
  holdCnt : Word
  gain : F32
  deriving DecidableEq, Repr

structure Gate where
  life : Life
  P : GateP
  C : GateC
  ch : List GateS
  deriving DecidableEq, Repr

/-! ### AGC (rule R41) -/

structure AgcP where
  targetDb : F32
  rangeDb : F32
  attackMs : F32
  releaseMs : F32
  deriving DecidableEq, Repr

structure AgcC where
  a : F32
  r : F32
  deriving DecidableEq, Repr

structure AgcK where
  extMode : Bool
  extGainDb : F32
  extTgt : F32
  deriving DecidableEq, Repr

structure AgcS where
  envelope : F32
  sgain : F32
  deriving DecidableEq, Repr

structure Agc where
  life : Life
  P : AgcP
  K : AgcK
  C : AgcC
  ch : List AgcS
  deriving DecidableEq, Repr

/-! ### DEESS (rule R42) -/

structure DeessP where
  freq : F32
  threshDb : F32
  ratio : F32
  attackMs : F32
  releaseMs : F32
  maxRedDb : F32
  deriving DecidableEq, Repr

structure DeessC where
  thLin : F32
  expo : F32
  floorG : F32
  a : F32
  r : F32
  xg : F32
  xr : F32
  xd : F32
  deriving DecidableEq, Repr

structure DeessS where
  xs1 : F32
  xs2 : F32
  envelope : F32
  deriving DecidableEq, Repr

structure Deess where
  life : Life
  P : DeessP
  C : DeessC
  ch : List DeessS
  deriving DecidableEq, Repr

/-! ### COMP (rule R43) -/

structure CompP where
  threshDb : F32
  ratio : F32
  kneeDb : F32
  attackMs : F32
  releaseMs : F32
  makeupDb : F32
  deriving DecidableEq, Repr

structure CompC where
  slope : F32
  a : F32
  r : F32
  makeupLin : F32
  deriving DecidableEq, Repr

structure Comp where
  life : Life
  P : CompP
  C : CompC
  /-- `GAIN`, one per channel -/
  gain : List F32
  deriving DecidableEq, Repr

/-! ### FET (rule R44) -/

structure FetP where
  inputDb : F32
  ratio : F32
  attackMs : F32
  releaseMs : F32
  autoMakeup : Bool
  deriving DecidableEq, Repr

structure FetK where
  threshOffsetDb : F32
  thLin : F32
  deriving DecidableEq, Repr

structure FetC where
  drive : F32
  expo : F32
  makeup : F32
  a : F32
  r : F32
  deriving DecidableEq, Repr

structure Fet where
  life : Life
  P : FetP
  K : FetK
  C : FetC
  /-- `ENVELOPE`, one per channel -/
  envelope : List F32
  deriving DecidableEq, Repr

/-! ### SAT (rules R45, R48) -/

structure SatP where
  drive : F32
  type : SatType
  deriving DecidableEq, Repr

/-- The tone-filter coefficients (rule R48). -/
structure SatC where
  pre : BqC
  post : BqC
  deriving DecidableEq, Repr

structure SatS where
  pre : BqTaps
  post : BqTaps
  deriving DecidableEq, Repr

structure Sat where
  life : Life
  P : SatP
  driveScale : F32
  C : SatC
  ch : List SatS
  deriving DecidableEq, Repr

/-! ### PITCH (rule R46) -/

structure PitchP where
  amount : F32
  windowMs : F32
  deriving DecidableEq, Repr

structure PitchC where
  ratio : F32
  step : F32
  win : F32
  deriving DecidableEq, Repr

structure PitchS where
  wpos : Word
  phase : F32
  mem : Memory
  deriving DecidableEq, Repr

structure Pitch where
  life : Life
  P : PitchP
  C : PitchC
  ch : List PitchS
  deriving DecidableEq, Repr

/-! ### DLY (rule R47) -/

structure DlyP where
  timeMs : F32
  feedback : F32
  mix : F32
  deriving DecidableEq, Repr

structure DlyS where
  current : F32
  wpos : Word
  mem : Memory
  deriving DecidableEq, Repr

structure Dly where
  life : Life
  /-- `UFLAGS.SNAP` (rules R33, R296) -/
  snap : Bool
  P : DlyP
  /-- `TARGET`, the one C register -/
  target : F32
  ch : List DlyS
  deriving DecidableEq, Repr

/-! ### RVS (rule R49) -/

structure RvsP where
  room : F32
  damp : F32
  mix : F32
  deriving DecidableEq, Repr

/-- Comb `i` of a channel: `CIDX[i]`, `CFILT[i]` and the memory `CB[i]`. -/
structure RvsComb where
  idx : Word
  filt : F32
  mem : Memory
  deriving DecidableEq, Repr

/-- Allpass `j` of a channel: `AIDX[j]` and the memory `AB[j]`. -/
structure RvsAp where
  idx : Word
  mem : Memory
  deriving DecidableEq, Repr

structure RvsS where
  combs : List RvsComb
  aps : List RvsAp
  deriving DecidableEq, Repr

structure Rvs where
  life : Life
  P : RvsP
  /-- `CLEN[0..7]` -/
  clen : List Word
  /-- `ALEN[0..3]` -/
  alen : List Word
  ch : List RvsS
  deriving DecidableEq, Repr

/-! ### FDN (rule R50) -/

structure FdnP where
  size : F32
  damp : F32
  mix : F32
  deriving DecidableEq, Repr

structure FdnC where
  fbgain : F32
  /-- `LEN[0..7]` -/
  len : List Word
  deriving DecidableEq, Repr

/-- A channel of FDN: the cursor, `LP[0..7]` and the eight lines `LB[0..7]`. -/
structure FdnS where
  wpos : Word
  lp : List F32
  lb : List Memory
  deriving DecidableEq, Repr

structure Fdn where
  life : Life
  P : FdnP
  C : FdnC
  ch : List FdnS
  deriving DecidableEq, Repr

/-! ### WID (rule R51) -/

structure WidP where
  width : F32
  bassFreq : F32
  monoBass : Bool
  deriving DecidableEq, Repr

structure WidS where
  lpm : F32
  lps : F32
  deriving DecidableEq, Repr

structure Wid where
  life : Life
  P : WidP
  /-- `K`, the one C register -/
  k : F32
  /-- one per channel pair `(2p, 2p+1)` -/
  pairs : List WidS
  deriving DecidableEq, Repr

/-! ### OS (rule R52) -/

/-- `UPH[0..15]` and `DNH[0..63]` of a channel, newest first. -/
structure OsS where
  uph : List F32
  dnh : List F32
  deriving DecidableEq, Repr

structure Os where
  life : Life
  ch : List OsS
  deriving DecidableEq, Repr

/-! ### LIM (rule R53) -/

structure LimP where
  ceilingDb : F32
  releaseMs : F32
  lookaheadMs : F32
  deriving DecidableEq, Repr

structure LimC where
  ceilLin : F32
  rel : F32
  la : Word
  deriving DecidableEq, Repr

structure LimS where
  wpos : Word
  genv : F32
  lb : Memory
  deriving DecidableEq, Repr

structure Lim where
  life : Life
  P : LimP
  C : LimC
  ch : List LimS
  deriving DecidableEq, Repr

/-! ### XN (rule R54) -/

structure XnP where
  targetRmsDb : F32
  fMudLo : F32
  fMudHi : F32
  fCoreLo : F32
  fCoreHi : F32
  fScrLo : F32
  fScrHi : F32
  deriving DecidableEq, Repr

/-- Six values, one per band edge: `KLP[0..5]`, or `LPS[0..5]` of a channel. -/
structure Six where
  v0 : F32
  v1 : F32
  v2 : F32
  v3 : F32
  v4 : F32
  v5 : F32
  deriving DecidableEq, Repr

/-- The statistics that `XN.ACC` gathers. -/
structure XnAcc where
  n : Word
  sumsq : F32
  peak : F32
  sumsqMud : F32
  sumsqCore : F32
  sumsqScr : F32
  deriving DecidableEq, Repr

/-- The five outputs of the supervisor. -/
structure XnOut where
  preGain : F32
  alGainDb : F32
  compThOffDb : F32
  eqMudCutDb : F32
  satDriveScale : F32
  deriving DecidableEq, Repr

structure Xn where
  life : Life
  P : XnP
  /-- `KLP[0..5]` -/
  klp : Six
  /-- `LPS[0..5]`, one six per channel -/
  lps : List Six
  acc : XnAcc
  out : XnOut
  deriving DecidableEq, Repr

/-! ### PIPE (rules R66, R67, R69) -/

/-- The Pipeline Configuration: the P registers of PIPE, and their latched copies `L_*`. -/
structure PipeP where
  en : Word
  sel : Word
  eqKind : Word
  eqBandEn : Word
  eqMudBand : Word
  deriving DecidableEq, Repr

structure Pipe where
  life : Life
  P : PipeP
  /-- `L_EN`, `L_SEL`, `L_EQ_KIND`, `L_EQ_BAND_EN`, `L_EQ_MUD_BAND` -/
  L : PipeP
  fs : F32
  osEn : Bool
  inBlock : Bool
  latency : Word
  /-- the sticky error bits (rule R69) -/
  status : Word
  deriving DecidableEq, Repr

/-! ### The port and the whole state -/

/-- The port of rule R110: the words that the host has sent and the block has not taken, oldest first, and the words
that the block has returned, oldest first. Log entry 4. -/
structure Port where
  rx : List Word
  tx : List Word
  deriving DecidableEq, Repr

/-- The architectural state (rule R30), with three fields of the model's own: the build, the port and the free-value
counter (log entries 2, 4 and 6). -/
structure State where
  params : Params
  port : Port
  /-- the counter that free values are drawn by (log entry 6) -/
  free : Nat
  env : Env
  /-- the NEQ instances of BQ -/
  bq : List Bq
  /-- the NEQ instances of SVF -/
  svf : List Svf
  gate : Gate
  agc : Agc
  deess : Deess
  comp : Comp
  fet : Fet
  sat : Sat
  pitch : Pitch
  dly : Dly
  rvs : Rvs
  fdn : Fdn
  wid : Wid
  os : Os
  lim : Lim
  xn : Xn
  pipe : Pipe
  deriving DecidableEq, Repr

/-! ### How a step can stop -/

/-- The machine never stops with a fault: the block has no trap, no access that can fail and no undefined command
(rules R84, R90, R420, R428, R430), so this type has no constructor. Safe: there is nothing to raise. -/
inductive Fault where
  deriving DecidableEq, Repr

/-- An instruction that the model does not give its meaning. -/
inductive Refusal where
  /-- raised by an arm of `exec` whose instruction has no meaning yet; no arm does. Safe: the machine stops. -/
  | notModelled (mnemonic : String)
  deriving DecidableEq, Repr

/-- The status codes other than `OK` (rule R421): why a command ends with no effect. -/
inductive Raised where
  /-- code 1 -/
  | illegal
  /-- code 2 -/
  | inactive
  /-- code 3 -/
  | unconfigured
  /-- code 4 -/
  | param
  /-- code 5 -/
  | restore
  /-- code 6 -/
  | sequence
  deriving DecidableEq, Repr

/-! ### Power-on

Every register but `UFLAGS`, `PIPE.STATUS` and OS's hard-wired `CONFIGURED` holds no value at power-on (rules R34,
R451). The zeros below stand for that: no command can read one of them (rule R424). Log entry 1. -/

/-- The taps of a biquad, all `+0.0`. -/
def BqTaps.zero : BqTaps := ⟨0, 0, 0, 0⟩
/-- Biquad coefficients, all `+0.0`. -/
def BqC.zero : BqC := ⟨0, 0, 0, 0, 0⟩
/-- Six `+0.0`. -/
def Six.zero : Six := ⟨0, 0, 0, 0, 0, 0⟩
/-- The integrator states, `+0.0`. -/
def SvfS.zero : SvfS := ⟨0, 0⟩

/-- An instance of BQ at power-on. -/
def Bq.powerOn (nch : Nat) : Bq :=
  { life := .off, P := ⟨.lowShelf, 0, 0, 0⟩, C := .zero, taps := List.replicate nch .zero, gainOffDb := 0 }

/-- An instance of SVF at power-on. -/
def Svf.powerOn (nch : Nat) : Svf :=
  { life := .off, P := ⟨.highPass, 0, 0, 0⟩, C := ⟨0, 0, 0, 0⟩, ch := List.replicate nch .zero, gainOffDb := 0 }

/-- The block of build `p` at power-on (rule R451), with nothing on the port. -/
def State.powerOn (p : Params) : State where
  params := p
  port := ⟨[], []⟩
  free := 0
  env := { life := .off, P := ⟨0, 0⟩, C := ⟨0, 0⟩, envelope := List.replicate p.nch 0 }
  bq := List.replicate p.neq (Bq.powerOn p.nch)
  svf := List.replicate p.neq (Svf.powerOn p.nch)
  gate :=
    { life := .off, P := ⟨0, 0, 0, 0, 0, 0⟩, C := ⟨0, 0, 0, 0, 0, 0⟩
      ch := List.replicate p.nch ⟨0, .closed, 0, 0⟩ }
  agc :=
    { life := .off, P := ⟨0, 0, 0, 0⟩, K := ⟨false, 0, 0⟩, C := ⟨0, 0⟩, ch := List.replicate p.nch ⟨0, 0⟩ }
  deess :=
    { life := .off, P := ⟨0, 0, 0, 0, 0, 0⟩, C := ⟨0, 0, 0, 0, 0, 0, 0, 0⟩
      ch := List.replicate p.nch ⟨0, 0, 0⟩ }
  comp := { life := .off, P := ⟨0, 0, 0, 0, 0, 0⟩, C := ⟨0, 0, 0, 0⟩, gain := List.replicate p.nch 0 }
  fet :=
    { life := .off, P := ⟨0, 0, 0, 0, false⟩, K := ⟨0, 0⟩, C := ⟨0, 0, 0, 0, 0⟩
      envelope := List.replicate p.nch 0 }
  sat :=
    { life := .off, P := ⟨0, .cubic⟩, driveScale := 0, C := ⟨.zero, .zero⟩
      ch := List.replicate p.nch ⟨.zero, .zero⟩ }
  pitch :=
    { life := .off, P := ⟨0, 0⟩, C := ⟨0, 0, 0⟩, ch := List.replicate p.nch ⟨0, 0, .unsized⟩ }
  dly :=
    { life := .off, snap := false, P := ⟨0, 0, 0⟩, target := 0, ch := List.replicate p.nch ⟨0, 0, .unsized⟩ }
  rvs :=
    { life := .off, P := ⟨0, 0, 0⟩, clen := List.replicate 8 0, alen := List.replicate 4 0
      ch := List.replicate p.nch ⟨List.replicate 8 ⟨0, 0, .unsized⟩, List.replicate 4 ⟨0, .unsized⟩⟩ }
  fdn :=
    { life := .off, P := ⟨0, 0, 0⟩, C := ⟨0, List.replicate 8 0⟩
      ch := List.replicate p.nch ⟨0, List.replicate 8 0, List.replicate 8 .unsized⟩ }
  wid := { life := .off, P := ⟨0, 0, false⟩, k := 0, pairs := List.replicate (p.nch / 2) ⟨0, 0⟩ }
  os :=
    { life := ⟨false, true, 0⟩, ch := List.replicate p.nch ⟨List.replicate 16 0, List.replicate 64 0⟩ }
  lim := { life := .off, P := ⟨0, 0, 0⟩, C := ⟨0, 0, 0⟩, ch := List.replicate p.nch ⟨0, 0, .unsized⟩ }
  xn :=
    { life := .off, P := ⟨0, 0, 0, 0, 0, 0, 0⟩, klp := .zero, lps := List.replicate p.nch .zero
      acc := ⟨0, 0, 0, 0, 0, 0⟩, out := ⟨0, 0, 0, 0, 0⟩ }
  pipe :=
    { life := .off, P := ⟨0, 0, 0, 0, 0⟩, L := ⟨0, 0, 0, 0, 0⟩, fs := 0, osEn := false, inBlock := false
      latency := 0, status := 0 }

/-- The machine right after reset: power-on (rule R451) of the build with the spec's default parameters (log
entry 2). -/
def State.reset : State := State.powerOn Params.standard

end Sys2Proof.Machine
end

