-- ==== Sys2Proof/Machine/Flags.lean ====
section
/-! DEFINITION. The flags: `UFLAGS` and what the lifecycle flags let a command do (rules R33, R35, R36, R424), the status codes and the sticky bits of `PIPE.STATUS` (rules R69, R421), the stage enable bits (rule R67), and the words of the enumerated registers (rule R71). -/

namespace Sys2Proof.Machine

/-- A flag register or field as a word: 0 or 1 (rule R12). -/
def flagWord (b : Bool) : Word := if b then 1 else 0

/-- A word that a flag register accepts (rule R71). -/
def flagOf (w : Word) : Option Bool := if w = 0 then some false else if w = 1 then some true else none

/-! ### Lifecycle -/

/-- The word `UFLAGS`: bit 0 `ACTIVE`, bit 1 `CONFIGURED`, bit 2 `SNAP` (rule R33). -/
def uflagsWord (l : Life) (snap : Bool) : Word :=
  (if l.active then 1 else 0) ||| (if l.configured then 2 else 0) ||| (if snap then 4 else 0)

/-- What RST does to the flags and to `FS_EFF` (rule R35). -/
def Life.reset (l : Life) (fs : F32) : Life := { l with active := true, fsEff := fs }

/-- What CFG does to the flags (rule R36). -/
def Life.configure (l : Life) : Life := { l with configured := true }

/-- What DEINIT does to the flags (rules R33, R396). -/
def Life.deinit (l : Life) : Life := { l with active := false }

/-- Both flags are set: every C register of the unit holds a value (rule R34). -/
def Life.ready (l : Life) : Bool := l.active && l.configured

/-- Ends the command with a status unless the condition holds. -/
def require (ok : Bool) (r : Raised) : Except Raised Unit := if ok then .ok () else .error r

/-- The check of an AUX that writes a K register, and of `OS.UP` and `OS.DOWN` (rule R424). -/
def Life.needActive (l : Life) : Except Raised Unit := require l.active .inactive

/-- The check of a PROC (rule R424): `Inactive` before `Unconfigured`. -/
def Life.needReady (l : Life) : Except Raised Unit := do
  require l.active .inactive
  require l.configured .unconfigured

/-! ### Status -/

/-- The code of a status other than `OK` (rule R421). -/
def Raised.code : Raised → Nat
  | .illegal => 1
  | .inactive => 2
  | .unconfigured => 3
  | .param => 4
  | .restore => 5
  | .sequence => 6

/-- The status word of `OK` (rule R421). -/
def okWord : Word := 0

/-- The status word `zext_32(code)` (rule R421). -/
def Raised.word (r : Raised) : Word := BitVec.ofNat 32 r.code

/-- The bit of `PIPE.STATUS` that a status sets (rules R69, R421). -/
def Raised.bit (r : Raised) : Word := 1#32 <<< r.code

/-! ### Stage enable bits (rule R67) and the select bits (rule R66) -/

/-- The stages, in pipeline order. -/
inductive Stage where
  | gate | agc | pitch | deess | eq | comp | sat | dly | reverb | wid | lim | xn
  deriving DecidableEq, Repr

/-- The bit of `EN` and `L_EN` that enables a stage. -/
def Stage.bit : Stage → Nat
  | .gate => 0
  | .agc => 1
  | .pitch => 2
  | .deess => 3
  | .eq => 4
  | .comp => 5
  | .sat => 6
  | .dly => 7
  | .reverb => 8
  | .wid => 9
  | .lim => 10
  | .xn => 11

/-- The stage is enabled in a Pipeline Configuration. -/
def PipeP.enabled (c : PipeP) (st : Stage) : Bool := c.en.getLsbD st.bit

/-- `SEL[0]`, `COMP_SEL`: the compressor is FET. -/
def PipeP.selectsFet (c : PipeP) : Bool := c.sel.getLsbD 0

/-- `SEL[1]`, `RVB_SEL`: the reverb is FDN. -/
def PipeP.selectsFdn (c : PipeP) : Bool := c.sel.getLsbD 1

/-- `EQ_KIND[b]`: band `b` uses SVF. -/
def PipeP.bandIsSvf (c : PipeP) (b : Nat) : Bool := c.eqKind.getLsbD b

/-- `EQ_BAND_EN[b]`: band `b` is enabled. -/
def PipeP.bandEnabled (c : PipeP) (b : Nat) : Bool := c.eqBandEn.getLsbD b

/-- `EQ_MUD_BAND` is 0xFFFFFFFF: no band receives the mud cut (rule R66). -/
def noMudBand : Word := 0xFFFFFFFF

/-! ### Enumerated registers as words -/

/-- `BQ.TYPE` as a word (rule R38). -/
def bqTypeWord : BqType → Word
  | .lowShelf => 0
  | .highShelf => 1
  | .peaking => 2
  | .lowPass => 3
  | .highPass => 4

/-- The words that `BQ.TYPE` accepts (rules R38, R71). -/
def bqTypeOf (w : Word) : Option BqType :=
  if w = 0 then some .lowShelf else if w = 1 then some .highShelf else if w = 2 then some .peaking
  else if w = 3 then some .lowPass else if w = 4 then some .highPass else none

/-- `SVF.TYPE` as a word (rule R39). -/
def svfTypeWord : SvfType → Word
  | .highPass => 0
  | .peaking => 1
  | .lowPass => 2

/-- The words that `SVF.TYPE` accepts (rules R39, R71). -/
def svfTypeOf (w : Word) : Option SvfType :=
  if w = 0 then some .highPass else if w = 1 then some .peaking else if w = 2 then some .lowPass else none

/-- `SAT.TYPE` as a word (rule R45). -/
def satTypeWord : SatType → Word
  | .cubic => 0
  | .tanh => 1

/-- The words that `SAT.TYPE` accepts (rules R45, R71). -/
def satTypeOf (w : Word) : Option SatType :=
  if w = 0 then some .cubic else if w = 1 then some .tanh else none

/-- `GATE.STATE` as a word (rule R40). -/
def gateStateWord : GateState → Word
  | .closed => 0
  | .opened => 1

/-- The words that `GATE.STATE` accepts (rules R40, R71). -/
def gateStateOf (w : Word) : Option GateState :=
  if w = 0 then some .closed else if w = 1 then some .opened else none

end Sys2Proof.Machine
end

