-- ==== Sys2Proof/Machine/Ops.lean ====
section
/-! DEFINITION. The shared operations: ring memories (rules R20, R80 to R85), instances and channels (rule R19), and the two ways a command ends: with results and `OK`, or with a status and no effect (rules R21, R425). -/

namespace Sys2Proof.Machine

/-! ### Ring memories -/

/-- What a cell reads as that the list does not name: RST writes `+0.0` to every cell (rule R83). -/
def Memory.blank : Word := 0

/-- The word of cell `i` of a list of cells. -/
def cellsRead : List MemCell → Nat → Word
  | [], _ => Memory.blank
  | (a, v) :: rest, i => if a = i then v else cellsRead rest i

/-- The list of cells with the word `v` at cell `i`, in canonical form. -/
def cellsWrite : List MemCell → Nat → Word → List MemCell
  | [], i, v => if v = Memory.blank then [] else [(i, v)]
  | (a, w) :: rest, i, v =>
    if a < i then (a, w) :: cellsWrite rest i v
    else if a = i then (if v = Memory.blank then rest else (i, v) :: rest)
    else if v = Memory.blank then (a, w) :: rest
    else (i, v) :: (a, w) :: rest

/-- Every cell of the list has a number from `lo` on, numbers rise strictly, and none holds `Memory.blank`. -/
def cellsWf : Nat → List MemCell → Bool
  | _, [] => true
  | lo, (a, v) :: rest => decide (lo ≤ a) && decide (v ≠ Memory.blank) && cellsWf (a + 1) rest

/-- The canonical form (rule R80: every listed cell is one of `0..cap-1`). -/
def Memory.wf (m : Memory) : Bool := cellsWf 0 m.cells && m.cells.all (fun c => decide (c.1 < m.cap))

/-- A memory as RST leaves it: `cap` cells, every one `+0.0` (rule R83). -/
def Memory.sized (cap : Nat) : Memory := ⟨cap, []⟩

/-- `MemRead(M, i)`: the word at cell `i mod cap(M)` (rules R20, R84). -/
def Memory.read (m : Memory) (i : Nat) : Word := cellsRead m.cells (i % m.cap)

/-- `MemWrite(M, i, v)`: stores `v` at cell `i mod cap(M)` (rules R20, R84). -/
def Memory.write (m : Memory) (i : Nat) (v : Word) : Memory := { m with cells := cellsWrite m.cells (i % m.cap) v }

/-- The relative read, `k` cells behind the cursor `w`: `MemRead(M, (W + cap - (k mod cap)) mod cap)` (rule R84). -/
def Memory.back (m : Memory) (w : Word) (k : Nat) : Word := m.read ((w.toNat + m.cap - k % m.cap) % m.cap)

/-- The cursor law: `W <- (W + 1) mod cap` (rule R85). -/
def nextCursor (w : Word) (cap : Nat) : Word := BitVec.ofNat 32 ((w.toNat + 1) % cap)

/-! ### Instances and channels (rule R19) -/

/-- Instance `i` of BQ. -/
def State.bqAt (s : State) (i : Nat) : Bq := s.bq.getD i (Bq.powerOn s.params.nch)

/-- Instance `i` of SVF. -/
def State.svfAt (s : State) (i : Nat) : Svf := s.svf.getD i (Svf.powerOn s.params.nch)

/-- The state with instance `i` of BQ replaced. -/
def State.setBq (s : State) (i : Nat) (u : Bq) : State := { s with bq := s.bq.set i u }

/-- The state with instance `i` of SVF replaced. -/
def State.setSvf (s : State) (i : Nat) (u : Svf) : State := { s with svf := s.svf.set i u }

/-- The copies of an S register or group for every channel, as RST writes them (rule R35). -/
def perChannel {α : Type} (p : Ctx) (v : α) : List α := List.replicate p.nch v

/-! ### How a command ends -/

/-- What the arithmetic of a command that runs at `s` may depend on beside its operands. -/
def State.ctx (s : State) : Ctx := { toParams := s.params, seed := s.free }

/-- The response of a command: the result words, then the status word (rule R110). -/
def State.respond (s : State) (results : List Word) (status : Word) : State :=
  { s with port := { s.port with tx := s.port.tx ++ results ++ [status] } }

/-- `return v1, …, vk`: the result words and status `OK` (rule R21). The free-value counter moves on (log entry 6). -/
def State.complete (s : State) (results : List Word) : State :=
  { s.respond results okWord with free := s.free + 1 }

/-- `raise`: no effect but the bit of `PIPE.STATUS`, no result word, and the status word (rules R21, R69, R425). -/
def State.raise (s : State) (r : Raised) : State :=
  { s.respond [] r.word with pipe := { s.pipe with status := s.pipe.status ||| r.bit } }

/-- A command at `s` ends: with the state and the results it computed, or with a status and nothing else. -/
def conclude (s : State) : Except Raised (State × List Word) → Host.Outcome State Fault Refusal
  | .ok (t, results) => .next (t.complete results)
  | .error r => .next (s.raise r)

end Sys2Proof.Machine
end

