-- ==== Sys2Proof/Machine/RegisterMap.lean ====
section
/-! DEFINITION. The map of the register space (rules R31, R33, R37 to R66, R71, R88): which register numbers a unit has, of which class, how many copies there are, and which of them WR may not write. -/

namespace Sys2Proof

/-- What a register is to RD and WR (rules R32, R33, R48, R69, R400). -/
inductive RegClass where
  /-- parameter -/
  | p
  /-- coefficient -/
  | c
  /-- a SAT tone-filter coefficient: a C register that needs `ACTIVE` only (rule R48) -/
  | tone
  /-- control input -/
  | k
  /-- per-channel state -/
  | s
  /-- unit-global state -/
  | g
  /-- `UFLAGS`, register 0xF0 (rule R33) -/
  | flags
  /-- `FS_EFF`, register 0xF1 (rule R33) -/
  | rate
  /-- `PIPE.STATUS` (rule R69) -/
  | status
  deriving DecidableEq, Repr

/-- Reads a register table written as rising bounds: the first pair whose bound lies above `r` gives the class. -/
def classBelow : List (Nat × RegClass) → Nat → Option RegClass
  | [], _ => none
  | (bound, cls) :: rest, r => if r < bound then some cls else classBelow rest r

/-- The numbered file of each unit, as rising bounds (rules R37 to R54 and R66): in `[(2, .p), (4, .c), …]`
registers 0 and 1 are P, 2 and 3 are C, and so on. -/
def regFile : UnitId → List (Nat × RegClass)
  | .env => [(2, .p), (4, .c), (5, .s)]
  | .bq => [(4, .p), (9, .c), (13, .s), (14, .k)]
  | .svf => [(4, .p), (8, .c), (10, .s), (11, .k)]
  | .gate => [(6, .p), (12, .c), (16, .s)]
  | .agc => [(4, .p), (6, .k), (8, .c), (9, .k), (11, .s)]
  | .deess => [(6, .p), (14, .c), (17, .s)]
  | .comp => [(6, .p), (10, .c), (11, .s)]
  | .fet => [(5, .p), (6, .k), (7, .c), (8, .k), (12, .c), (13, .s)]
  | .sat => [(2, .p), (3, .k), (13, .tone), (21, .s)]
  | .pitch => [(2, .p), (5, .c), (7, .s)]
  | .dly => [(3, .p), (4, .c), (6, .s)]
  | .rvs => [(3, .p), (15, .g), (35, .s)]
  | .fdn => [(3, .p), (12, .c), (21, .s)]
  | .wid => [(3, .p), (4, .c), (6, .s)]
  | .os => [(80, .s)]
  | .lim => [(3, .p), (6, .c), (8, .s)]
  | .xn => [(7, .p), (13, .c), (19, .s), (30, .g)]
  | .pipe => [(5, .p), (14, .g), (15, .status)]

/-- The class of register number `r` of a unit, `none` where the unit has no such register (rules R33, R88). -/
def regClass (u : UnitId) (r : Nat) : Option RegClass :=
  if r = 0xF0 then some .flags
  else if r = 0xF1 then some .rate
  else classBelow (regFile u) r

/-- How many instances a unit has (rule R31). -/
def instances (p : Params) : UnitId → Nat
  | .bq => p.neq
  | .svf => p.neq
  | _ => 1

/-- Whether CH selects a copy of a register of class `cls` of unit `u` (rule R118): per-channel registers by a channel
below NCH, WID's by the even channel of a pair that exists (rule R51, log entry 15), single-copy ones by 0. -/
def copyExists (p : Params) (u : UnitId) (cls : RegClass) (ch : Nat) : Bool :=
  match cls, u with
  | .s, .wid => decide (ch % 2 = 0) && decide (ch + 1 < p.nch)
  | .s, _ => decide (ch < p.nch)
  | _, _ => decide (ch = 0)

/-- The address check of RD and WR (rule R118): the unit has the register, the instance and the copy. -/
def addressOk (p : Params) (u : UnitId) (ch idx reg : Nat) : Bool :=
  match regClass u reg with
  | none => false
  | some cls => decide (idx < instances p u) && copyExists p u cls ch

/-- The registers that WR may not write (rule R71). -/
def readOnlyReg (u : UnitId) (r : Nat) : Bool :=
  decide (r = 0xF0) || decide (r = 0xF1) ||
  match u with
  | .fdn => decide (4 ≤ r ∧ r ≤ 11)
  | .lim => decide (r = 5)
  | .rvs => decide (3 ≤ r ∧ r ≤ 14)
  | .pipe => decide (10 ≤ r ∧ r ≤ 13)
  | _ => false

/-- A register of this class needs `ACTIVE` to hold a value (rules R34, R48, R400). -/
def RegClass.needsActive : RegClass → Bool
  | .c | .tone | .k | .s | .g | .rate => true
  | .p | .flags | .status => false

/-- A register of this class needs `CONFIGURED` to hold a value (rules R34, R400). -/
def RegClass.needsConfigured : RegClass → Bool
  | .p | .c => true
  | .tone | .k | .s | .g | .rate | .flags | .status => false

end Sys2Proof
end

