-- ==== Sys2Proof/WellFormed.lean ====
section
/-! DEFINITION. The field rules of rule R118 that depend on the build: a command that breaks one is `Illegal`. (What a command word can break whatever the build is refused by the decoder, by name.) -/

namespace Sys2Proof

/-- `CH < NCH`, for a per-channel command (rule R118). -/
def channelOk (p : Params) (ch : BitVec 4) : Bool := decide (ch.toNat < p.nch)

/-- `IDX < NEQ`, for a BQ or SVF command that takes `idx` (rule R118). -/
def bandOk (p : Params) (idx : BitVec 8) : Bool := decide (idx.toNat < p.neq)

/-- `CH` even and `CH + 1 < NCH`, for `WID.PROC` (rule R118). -/
def pairOk (p : Params) (ch : BitVec 4) : Bool := decide (ch.toNat % 2 = 0) && decide (ch.toNat + 1 < p.nch)

/-- The command is one of rule R116 for this build: its channel, pair, band or register address exists (rule R118),
and it has the number of operand words that rule R110 gives it. -/
def Instr.wellFormed (p : Params) : Instr → Bool
  | .envProc ch _ | .gateProc ch _ | .agcProc ch _ | .deessProc ch _ | .compProc ch _ | .fetProc ch _
  | .satProc ch _ | .pitchProc ch _ | .dlyProc ch _ | .rvsProc ch _ | .fdnProc ch _ | .limProc ch _
  | .osUp ch _ | .osDown ch _ _ _ _ | .xnAcc ch _ => channelOk p ch
  | .bqProc ch idx _ | .svfProc ch idx _ => channelOk p ch && bandOk p idx
  | .bqCfg idx _ _ _ _ | .bqGoff idx _ | .svfCfg idx _ _ _ _ | .svfGoff idx _ => bandOk p idx
  | .widProc ch _ _ => pairOk p ch
  | .pipeFrame xs => decide (xs.length = p.nch)
  | .pipeRestore n ws => decide (ws.length = n.toNat)
  | .rd u ch idx reg => addressOk p u ch.toNat idx.toNat reg.toNat
  | .wr u ch idx reg _ => addressOk p u ch.toNat idx.toNat reg.toNat
  | .envRst _ | .envCfg _ _ | .bqRst _ | .svfRst _ | .gateRst _ | .gateCfg _ _ _ _ _ _ | .agcRst _
  | .agcCfg _ _ _ _ | .agcExt _ _ | .deessRst _ | .deessCfg _ _ _ _ _ _ | .compRst _ | .compCfg _ _ _ _ _ _
  | .fetRst _ | .fetCfg _ _ _ _ _ | .fetThoff _ | .satRst _ | .satCfg _ _ | .satDscale _ | .pitchRst _
  | .pitchCfg _ _ | .dlyRst _ | .dlyCfg _ _ _ | .rvsRst _ | .rvsCfg _ _ _ | .fdnRst _ | .fdnCfg _ _ _
  | .widRst _ | .widCfg _ _ _ | .osRst | .limRst _ | .limCfg _ _ _ | .xnRst _ | .xnCfg _ _ _ _ _ _ _
  | .xnAnalyze | .pipeRst _ _ | .pipeCfg _ _ _ _ _ | .pipeBegin | .pipeEnd | .pipeDeinit | .pipeSave => true

end Sys2Proof
end

