-- ==== Sys2Proof/Machine/Operands.lean ====
section
/-! DEFINITION. The operand forms: the rate of a RST (rules R151, R422), the ratio floor (rule R246), the integer words of `PIPE.CFG` (rule R387), and the values that a register accepts from WR (rules R71, R401). -/

namespace Sys2Proof.Machine

/-- `fs > 0.0 and fs <= FS_MAX`: the rate a RST accepts; false for a NaN (rules R151, R421). -/
def rateOk (p : Params) (fs : F32) : Bool := F32.lt F32.zero fs && F32.le fs p.fsMax

/-- The effective ratio `fmax(RATIO, 1.0)` (rule R246). -/
def ratioE (ratio : F32) : F32 := F32.fmax ratio F32.one

/-- `EN` has no bit above 11 (rules R67, R387). -/
def enOk (en : Word) : Bool := decide (en.toNat < 2 ^ 12)

/-- `SEL` has no bit above 1 (rules R66, R387). -/
def selOk (sel : Word) : Bool := decide (sel.toNat < 2 ^ 2)

/-- A band mask has no bit at or above NEQ, checked where NEQ is below 32 (rule R387). -/
def bandMaskOk (p : Params) (w : Word) : Bool := !decide (p.neq < 32) || decide (w.toNat < 2 ^ p.neq)

/-- `EQ_MUD_BAND` is a band index or 0xFFFFFFFF (rules R66, R387). -/
def mudBandOk (p : Params) (w : Word) : Bool := decide (w = noMudBand) || decide (w.toNat < p.neq)

/-- The operand check of `PIPE.CFG` (rule R387). -/
def pipeCfgOk (p : Params) (c : PipeP) : Bool :=
  enOk c.en && selOk c.sel && bandMaskOk p c.eqKind && bandMaskOk p c.eqBandEn && mudBandOk p c.eqMudBand

/-- A word as written, if the register accepts it. -/
def accept (ok : Bool) (w : Word) : Option Word := if ok then some w else none

/-- A cursor accepts only values below its memory's capacity (rule R71). -/
def cursorOf (cap : Nat) (w : Word) : Option Word := accept (decide (w.toNat < cap)) w

end Sys2Proof.Machine
end

