-- ==== Sys2Proof/Machine/Envelope.lean ====
section
/-! DEFINITION. ENV, the envelope follower, and the two functions that every dynamics unit borrows from it (rules R150 to R157). -/

namespace Sys2Proof.Machine

/-- `env_coef_s(fs, t) = NUM.exp(-(1.0 / (fs * t)))` (rule R156). -/
def envCoefS (p : Ctx) (fs t : F32) : F32 := Num.exp (F32.neg (p.div F32.one (p.mul fs t)))

/-- `env_coef_ms(fs, ms) = NUM.exp(-(1.0 / ((fs * ms) / 1000.0)))` (rule R156). -/
def envCoefMs (p : Ctx) (fs ms : F32) : F32 :=
  Num.exp (F32.neg (p.div F32.one (p.div (p.mul fs ms) F32.thousand)))

/-- The one-pole form `(k * s) + ((1.0 - k) * v)` of every smoothed value. -/
def onePole (p : Ctx) (k s v : F32) : F32 := p.add (p.mul k s) (p.mul (p.sub F32.one k) v)

/-- `env_step(a, r, e, v)`: attack when `v > e`, release otherwise (rule R153). -/
def envStep (p : Ctx) (a r e v : F32) : F32 := if F32.lt e v then onePole p a e v else onePole p r e v

/-- The coefficients of ENV (rule R151). -/
def envCoeffs (p : Ctx) (fs : F32) (P : EnvP) : EnvC := ⟨envCoefS p fs P.tAtt, envCoefS p fs P.tRel⟩

/-- Recomputes the C registers while `ACTIVE` and `CONFIGURED` (rules R35, R36). -/
def Env.derive (p : Ctx) (u : Env) : Env :=
  if u.life.ready then { u with C := envCoeffs p u.life.fsEff u.P } else u

/-- `ENV.RST` (rule R151). -/
def Env.rst (p : Ctx) (u : Env) (fs : F32) : Except Raised Env := do
  require (rateOk p.toParams fs) .param
  pure (Env.derive p { u with life := u.life.reset fs, envelope := perChannel p F32.zero })

/-- The P registers written, then rule R36 (`ENV.CFG`, rule R152). -/
def Env.cfg (p : Ctx) (u : Env) (P : EnvP) : Env := Env.derive p { u with P := P, life := u.life.configure }

/-- `ENV.PROC` on channel `c` (rule R154). -/
def Env.proc (p : Ctx) (u : Env) (c : Nat) (x : F32) : Except Raised (Env × F32) := do
  u.life.needReady
  let e := envStep p u.C.a u.C.r (u.envelope.getD c 0) x
  pure ({ u with envelope := u.envelope.set c e }, e)

/-- `ENV.RST fs` (rule R151). -/
def execEnvRst (fs : Word) (s : State) : Host.Outcome State Fault Refusal := conclude s do
  let u ← s.env.rst s.ctx fs
  pure ({ s with env := u }, [])

/-- `ENV.CFG tAttack_s, tRelease_s` (rule R152). -/
def execEnvCfg (tAtt tRel : Word) (s : State) : Host.Outcome State Fault Refusal := conclude s do
  pure ({ s with env := s.env.cfg s.ctx ⟨tAtt, tRel⟩ }, [])

/-- `ENV.PROC ch=c inputAbs` (rule R154). -/
def execEnvProc (ch : BitVec 4) (x : Word) (s : State) : Host.Outcome State Fault Refusal := conclude s do
  require (channelOk s.params ch) .illegal
  let (u, y) ← s.env.proc s.ctx ch.toNat x
  pure ({ s with env := u }, [y])

end Sys2Proof.Machine
end

