-- ==== Sys2Proof/Machine/Compressors.lean ====
section
/-! DEFINITION. The two compressors: COMP, the generic soft-knee variant, and FET (rules R226 to R246). -/

namespace Sys2Proof.Machine

/-! ### COMP -/

/-- The coefficients of COMP (rule R229). -/
def compCoeffs (p : Ctx) (fs : F32) (P : CompP) : CompC where
  slope := p.sub (p.div F32.one (ratioE P.ratio)) F32.one
  a := envCoefMs p fs P.attackMs
  r := envCoefMs p fs P.releaseMs
  makeupLin := p.db2lin P.makeupDb

/-- `comp_curve(ov)`: the gain reduction in dB, a quadratic inside the knee (rule R230). -/
def compCurve (p : Ctx) (kneeDb slope ov : F32) : F32 :=
  if F32.lt F32.zero kneeDb && F32.le (p.mul F32.two (F32.abs ov)) kneeDb then
    let t := p.add ov (p.div kneeDb F32.two)
    p.div (p.mul slope (p.mul t t)) (p.mul F32.two kneeDb)
  else if F32.lt F32.zero ov then p.mul ov slope
  else F32.zero

/-- Recomputes the C registers while `ACTIVE` and `CONFIGURED` (rules R35, R36). -/
def Comp.derive (p : Ctx) (u : Comp) : Comp :=
  if u.life.ready then { u with C := compCoeffs p u.life.fsEff u.P } else u

/-- `COMP.RST` (rule R227). -/
def Comp.rst (p : Ctx) (u : Comp) (fs : F32) : Except Raised Comp := do
  require (rateOk p.toParams fs) .param
  pure (Comp.derive p { u with life := u.life.reset fs, gain := perChannel p F32.one })

/-- The P registers written, then rule R36 (`COMP.CFG`, rule R228). -/
def Comp.cfg (p : Ctx) (u : Comp) (P : CompP) : Comp := Comp.derive p { u with P := P, life := u.life.configure }

/-- The gain reduction in dB for the sample level `v`; a level below `1e-6` is silence (rule R231). -/
def compRed (p : Ctx) (P : CompP) (C : CompC) (v : F32) : F32 :=
  if F32.lt v 0x358637BD then F32.zero
  else compCurve p P.kneeDb C.slope (p.sub (p.lin2db v) P.threshDb)

/-- The smoothed gain after a sample: attack when it falls, release otherwise (rule R231). -/
def compGain (p : Ctx) (P : CompP) (C : CompC) (gain x : F32) : F32 :=
  let tgt := p.db2lin (compRed p P C (F32.abs x))
  onePole p (if F32.lt tgt gain then C.a else C.r) gain tgt

/-- `COMP.PROC` on channel `c` (rule R231). -/
def Comp.proc (p : Ctx) (u : Comp) (c : Nat) (x : F32) : Except Raised (Comp × F32) := do
  u.life.needReady
  let g := compGain p u.P u.C (u.gain.getD c F32.one) x
  pure ({ u with gain := u.gain.set c g }, p.mul (p.mul x g) u.C.makeupLin)

/-- `COMP.PROC` in a state (rule R231). -/
def State.compProc (s : State) (c : Nat) (x : F32) : Except Raised (State × F32) := do
  let (u, y) ← s.comp.proc s.ctx c x
  pure ({ s with comp := u }, y)

/-- `COMP.RST fs` (rule R227). -/
def execCompRst (fs : Word) (s : State) : Host.Outcome State Fault Refusal := conclude s do
  let u ← s.comp.rst s.ctx fs
  pure ({ s with comp := u }, [])

/-- `COMP.CFG` (rule R228). -/
def execCompCfg (threshDb ratio kneeDb attackMs releaseMs makeupDb : Word) (s : State) :
    Host.Outcome State Fault Refusal := conclude s do
  pure ({ s with comp := s.comp.cfg s.ctx ⟨threshDb, ratio, kneeDb, attackMs, releaseMs, makeupDb⟩ }, [])

/-- `COMP.PROC ch=c x` (rule R231). -/
def execCompProc (ch : BitVec 4) (x : Word) (s : State) : Host.Outcome State Fault Refusal := conclude s do
  require (channelOk s.params ch) .illegal
  let (t, y) ← s.compProc ch.toNat x
  pure (t, [y])

/-! ### FET -/

/-- `-20.0`, the fixed internal threshold in dBFS (rules R236, R239, R240). -/
def fetThreshDb : F32 := 0xC1A00000

/-- The coefficients of FET (rule R239). -/
def fetCoeffs (p : Ctx) (fs : F32) (P : FetP) : FetC where
  drive := p.db2lin P.inputDb
  expo := p.sub (p.div F32.one (ratioE P.ratio)) F32.one
  makeup :=
    if P.autoMakeup then
      p.db2lin (p.mul (p.sub F32.zero fetThreshDb) (p.sub F32.one (p.div F32.one (ratioE P.ratio))))
    else F32.one
  a := envCoefMs p fs P.attackMs
  r := envCoefMs p fs P.releaseMs

/-- The effective threshold `db2lin(-20.0 + THRESH_OFFSET_DB)` (rule R240). -/
def fetThLin (p : Ctx) (offsetDb : F32) : F32 := p.db2lin (p.add fetThreshDb offsetDb)

/-- Recomputes the C registers while `ACTIVE` and `CONFIGURED` (rules R35, R36). -/
def Fet.derive (p : Ctx) (u : Fet) : Fet :=
  if u.life.ready then { u with C := fetCoeffs p u.life.fsEff u.P } else u

/-- `FET.RST` (rule R237). -/
def Fet.rst (p : Ctx) (u : Fet) (fs : F32) : Except Raised Fet := do
  require (rateOk p.toParams fs) .param
  pure (Fet.derive p
    { u with life := u.life.reset fs, K := ⟨F32.zero, fetThLin p F32.zero⟩, envelope := perChannel p F32.zero })

/-- The P registers written, then rule R36 (`FET.CFG`, rule R238). -/
def Fet.cfg (p : Ctx) (u : Fet) (P : FetP) : Fet := Fet.derive p { u with P := P, life := u.life.configure }

/-- `FET.THOFF` (rule R241). -/
def Fet.thoff (p : Ctx) (u : Fet) (offsetDb : F32) : Except Raised Fet := do
  u.life.needActive
  pure { u with K := ⟨offsetDb, fetThLin p offsetDb⟩ }

/-- The gain above the threshold (rule R242). -/
def fetGain (p : Ctx) (thLin expo e : F32) : F32 :=
  if F32.lt thLin e then Num.pow (p.div e thLin) expo else F32.one

/-- `FET.PROC` on channel `c` (rule R242). -/
def Fet.proc (p : Ctx) (u : Fet) (c : Nat) (x : F32) : Except Raised (Fet × F32) := do
  u.life.needReady
  let xd := p.mul x u.C.drive
  let e := envStep p u.C.a u.C.r (u.envelope.getD c F32.zero) (F32.abs xd)
  pure ({ u with envelope := u.envelope.set c e },
    p.mul (p.mul xd (fetGain p u.K.thLin u.C.expo e)) u.C.makeup)

/-- `FET.THOFF` in a state (rule R241). -/
def State.fetThoff (s : State) (offsetDb : F32) : Except Raised State := do
  let u ← s.fet.thoff s.ctx offsetDb
  pure { s with fet := u }

/-- `FET.PROC` in a state (rule R242). -/
def State.fetProc (s : State) (c : Nat) (x : F32) : Except Raised (State × F32) := do
  let (u, y) ← s.fet.proc s.ctx c x
  pure ({ s with fet := u }, y)

/-- `FET.RST fs` (rule R237). -/
def execFetRst (fs : Word) (s : State) : Host.Outcome State Fault Refusal := conclude s do
  let u ← s.fet.rst s.ctx fs
  pure ({ s with fet := u }, [])

/-- `FET.CFG mode=autoMakeup inputDb, ratio, attackMs, releaseMs` (rule R238). -/
def execFetCfg (autoMakeup : Bool) (inputDb ratio attackMs releaseMs : Word) (s : State) :
    Host.Outcome State Fault Refusal := conclude s do
  pure ({ s with fet := s.fet.cfg s.ctx ⟨inputDb, ratio, attackMs, releaseMs, autoMakeup⟩ }, [])

/-- `FET.PROC ch=c x` (rule R242). -/
def execFetProc (ch : BitVec 4) (x : Word) (s : State) : Host.Outcome State Fault Refusal := conclude s do
  require (channelOk s.params ch) .illegal
  let (t, y) ← s.fetProc ch.toNat x
  pure (t, [y])

/-- `FET.THOFF offsetDb` (rule R241). -/
def execFetThoff (offsetDb : Word) (s : State) : Host.Outcome State Fault Refusal := conclude s do
  let t ← s.fetThoff offsetDb
  pure (t, [])

end Sys2Proof.Machine
end

