-- ==== Sys2Proof/Machine/Filters.lean ====
section
/-! DEFINITION. BQ, the RBJ biquad, and SVF, the ZDF/TPT state-variable filter (rules R170 to R187), with the functions that DEESS and SAT borrow from them. -/

namespace Sys2Proof.Machine

/-! ### The biquad -/

/-- The six unnormalised coefficients of a biquad. -/
structure BqRaw where
  b0 : F32
  b1 : F32
  b2 : F32
  a0 : F32
  a1 : F32
  a2 : F32
  deriving DecidableEq, Repr

/-- The unnormalised coefficients by type, from `A`, `cw = cos(w0)` and `alpha` (rule R173). -/
def bqRaw (p : Ctx) (type : BqType) (A cw alpha : F32) : BqRaw :=
  let Ap := p.add A F32.one
  let Am := p.sub A F32.one
  let beta := p.mul (p.mul F32.two (Num.sqrt A)) alpha
  let m2 := F32.neg F32.two
  match type with
  | .peaking =>
    { b0 := p.add F32.one (p.mul alpha A), b1 := p.mul m2 cw, b2 := p.sub F32.one (p.mul alpha A)
      a0 := p.add F32.one (p.div alpha A), a1 := p.mul m2 cw, a2 := p.sub F32.one (p.div alpha A) }
  | .lowPass =>
    let b1 := p.sub F32.one cw
    let b0 := p.div b1 F32.two
    { b0 := b0, b1 := b1, b2 := b0
      a0 := p.add F32.one alpha, a1 := p.mul m2 cw, a2 := p.sub F32.one alpha }
  | .highPass =>
    let t := p.add F32.one cw
    let b0 := p.div t F32.two
    { b0 := b0, b1 := F32.neg t, b2 := b0
      a0 := p.add F32.one alpha, a1 := p.mul m2 cw, a2 := p.sub F32.one alpha }
  | .lowShelf =>
    { b0 := p.mul A (p.add (p.sub Ap (p.mul Am cw)) beta)
      b1 := p.mul (p.mul F32.two A) (p.sub Am (p.mul Ap cw))
      b2 := p.mul A (p.sub (p.sub Ap (p.mul Am cw)) beta)
      a0 := p.add (p.add Ap (p.mul Am cw)) beta
      a1 := p.mul m2 (p.add Am (p.mul Ap cw))
      a2 := p.sub (p.add Ap (p.mul Am cw)) beta }
  | .highShelf =>
    { b0 := p.mul A (p.add (p.add Ap (p.mul Am cw)) beta)
      b1 := p.mul (p.mul m2 A) (p.add Am (p.mul Ap cw))
      b2 := p.mul A (p.sub (p.add Ap (p.mul Am cw)) beta)
      a0 := p.add (p.sub Ap (p.mul Am cw)) beta
      a1 := p.mul F32.two (p.sub Am (p.mul Ap cw))
      a2 := p.sub (p.sub Ap (p.mul Am cw)) beta }

/-- `bq_coeffs(type, freq, Q, gainDb, fs)`, normalised by `a0` (rule R173); `Q` is floored at 0.1. -/
def bqCoeffs (p : Ctx) (type : BqType) (freq q gainDb fs : F32) : BqC :=
  let qe := F32.fmax q 0x3DCCCCCD
  let A := Num.pow F32.ten (p.div gainDb F32.forty)
  let w0 := p.div (p.mul (p.mul F32.two F32.pi) freq) fs
  let raw := bqRaw p type A (Num.cos w0) (p.div (Num.sin w0) (p.mul F32.two qe))
  ⟨p.div raw.b0 raw.a0, p.div raw.b1 raw.a0, p.div raw.b2 raw.a0, p.div raw.a1 raw.a0, p.div raw.a2 raw.a0⟩

/-- The recurrence of the biquad, summed left to right (rule R175). -/
def bqOut (p : Ctx) (c : BqC) (t : BqTaps) (x : F32) : F32 :=
  p.sub (p.sub (p.add (p.add (p.mul c.b0 x) (p.mul c.b1 t.x1)) (p.mul c.b2 t.x2)) (p.mul c.a1 t.y1))
    (p.mul c.a2 t.y2)

/-- `bq_step(c, s, x)`: the output, and the taps shifted afterward (rule R175). -/
def bqStep (p : Ctx) (c : BqC) (t : BqTaps) (x : F32) : BqTaps × F32 :=
  (⟨x, t.x1, bqOut p c t x, t.y1⟩, bqOut p c t x)

/-- Recomputes the C registers of an instance while `ACTIVE` and `CONFIGURED`, with the gain offset (rules R171, R172,
R177). -/
def Bq.derive (p : Ctx) (u : Bq) : Bq :=
  if u.life.ready then
    { u with C := bqCoeffs p u.P.type u.P.freq u.P.q (p.add u.P.gainDb u.gainOffDb) u.life.fsEff }
  else u

/-- What `BQ.RST` does to one instance (rule R171). -/
def Bq.reset (p : Ctx) (fs : F32) (u : Bq) : Bq :=
  Bq.derive p { u with life := u.life.reset fs, gainOffDb := F32.zero, taps := perChannel p BqTaps.zero }

/-- The P registers of an instance written, then rule R36 (`BQ.CFG`, rule R172). -/
def Bq.cfg (p : Ctx) (u : Bq) (P : BqP) : Bq := Bq.derive p { u with P := P, life := u.life.configure }

/-- `BQ.GOFF` on one instance (rule R177). -/
def Bq.goff (p : Ctx) (u : Bq) (offsetDb : F32) : Except Raised Bq := do
  u.life.needActive
  pure (Bq.derive p { u with gainOffDb := offsetDb })

/-- `BQ.PROC` on channel `c` of one instance (rule R176). -/
def Bq.proc (p : Ctx) (u : Bq) (c : Nat) (x : F32) : Except Raised (Bq × F32) := do
  u.life.needReady
  let (t, y) := bqStep p u.C (u.taps.getD c BqTaps.zero) x
  pure ({ u with taps := u.taps.set c t }, y)

/-- `BQ.RST` on every instance (rule R171). -/
def State.bqRst (s : State) (fs : F32) : Except Raised State := do
  require (rateOk s.params fs) .param
  pure { s with bq := s.bq.map (Bq.reset s.ctx fs) }

/-- `BQ.GOFF` on instance `i`, which must exist (rules R118, R177). -/
def State.bqGoff (s : State) (i : Nat) (offsetDb : F32) : Except Raised State := do
  require (decide (i < s.params.neq)) .illegal
  let u ← (s.bqAt i).goff s.ctx offsetDb
  pure (s.setBq i u)

/-- `BQ.PROC` on channel `c` of instance `i` (rule R176). -/
def State.bqProc (s : State) (c i : Nat) (x : F32) : Except Raised (State × F32) := do
  let (u, y) ← (s.bqAt i).proc s.ctx c x
  pure (s.setBq i u, y)

/-- `BQ.RST fs` (rule R171). -/
def execBqRst (fs : Word) (s : State) : Host.Outcome State Fault Refusal := conclude s do
  let t ← s.bqRst fs
  pure (t, [])

/-- `BQ.CFG idx=i mode=type freq, Q, gainDb` (rule R172). -/
def execBqCfg (idx : BitVec 8) (type : BqType) (freq q gainDb : Word) (s : State) :
    Host.Outcome State Fault Refusal := conclude s do
  require (bandOk s.params idx) .illegal
  pure (s.setBq idx.toNat ((s.bqAt idx.toNat).cfg s.ctx ⟨type, freq, q, gainDb⟩), [])

/-- `BQ.PROC ch=c idx=i x` (rule R176). -/
def execBqProc (ch : BitVec 4) (idx : BitVec 8) (x : Word) (s : State) :
    Host.Outcome State Fault Refusal := conclude s do
  require (channelOk s.params ch && bandOk s.params idx) .illegal
  let (t, y) ← s.bqProc ch.toNat idx.toNat x
  pure (t, [y])

/-- `BQ.GOFF idx=i offsetDb` (rule R177). -/
def execBqGoff (idx : BitVec 8) (offsetDb : Word) (s : State) : Host.Outcome State Fault Refusal := conclude s do
  let t ← s.bqGoff idx.toNat offsetDb
  pure (t, [])

/-! ### The state-variable filter -/

/-- `svf_coeffs(freq, Q, gainDb, fs)`; `Q` is floored at 0.1 (rule R183). -/
def svfCoeffs (p : Ctx) (freq q gainDb fs : F32) : SvfC :=
  let qe := F32.fmax q 0x3DCCCCCD
  let g := Num.tan (p.div (p.mul F32.pi freq) fs)
  let r := p.div F32.one (p.mul F32.two qe)
  let A := Num.pow F32.ten (p.div gainDb F32.forty)
  { g := g
    r := r
    d := p.add (p.add F32.one (p.mul (p.mul F32.two r) g)) (p.mul g g)
    ak := p.sub (p.mul A A) F32.one }

/-- `svf_step(c, t, s, x)`: the three outputs from the old state, the state update, and the selected output (rule
R184). -/
def svfStep (p : Ctx) (c : SvfC) (t : SvfType) (s : SvfS) (x : F32) : SvfS × F32 :=
  let hp := p.div (p.sub (p.sub x (p.mul (p.add (p.mul F32.two c.r) c.g) s.s1)) s.s2) c.d
  let bp := p.add (p.mul c.g hp) s.s1
  let lp := p.add (p.mul c.g bp) s.s2
  (⟨p.sub (p.mul F32.two bp) s.s1, p.sub (p.mul F32.two lp) s.s2⟩,
   match t with
   | .highPass => hp
   | .lowPass => lp
   | .peaking => p.add x (p.mul c.ak (p.mul bp (p.mul F32.two c.r))))

/-- Recomputes the C registers of an instance while `ACTIVE` and `CONFIGURED`, with the gain offset (rules R181, R182,
R186). -/
def Svf.derive (p : Ctx) (u : Svf) : Svf :=
  if u.life.ready then
    { u with C := svfCoeffs p u.P.freq u.P.q (p.add u.P.gainDb u.gainOffDb) u.life.fsEff }
  else u

/-- What `SVF.RST` does to one instance (rule R181). -/
def Svf.reset (p : Ctx) (fs : F32) (u : Svf) : Svf :=
  Svf.derive p { u with life := u.life.reset fs, gainOffDb := F32.zero, ch := perChannel p SvfS.zero }

/-- The P registers of an instance written, then rule R36 (`SVF.CFG`, rule R182). -/
def Svf.cfg (p : Ctx) (u : Svf) (P : SvfP) : Svf := Svf.derive p { u with P := P, life := u.life.configure }

/-- `SVF.GOFF` on one instance (rule R186). -/
def Svf.goff (p : Ctx) (u : Svf) (offsetDb : F32) : Except Raised Svf := do
  u.life.needActive
  pure (Svf.derive p { u with gainOffDb := offsetDb })

/-- `SVF.PROC` on channel `c` of one instance (rule R185). -/
def Svf.proc (p : Ctx) (u : Svf) (c : Nat) (x : F32) : Except Raised (Svf × F32) := do
  u.life.needReady
  let (t, y) := svfStep p u.C u.P.type (u.ch.getD c SvfS.zero) x
  pure ({ u with ch := u.ch.set c t }, y)

/-- `SVF.RST` on every instance (rule R181). -/
def State.svfRst (s : State) (fs : F32) : Except Raised State := do
  require (rateOk s.params fs) .param
  pure { s with svf := s.svf.map (Svf.reset s.ctx fs) }

/-- `SVF.GOFF` on instance `i`, which must exist (rules R118, R186). -/
def State.svfGoff (s : State) (i : Nat) (offsetDb : F32) : Except Raised State := do
  require (decide (i < s.params.neq)) .illegal
  let u ← (s.svfAt i).goff s.ctx offsetDb
  pure (s.setSvf i u)

/-- `SVF.PROC` on channel `c` of instance `i` (rule R185). -/
def State.svfProc (s : State) (c i : Nat) (x : F32) : Except Raised (State × F32) := do
  let (u, y) ← (s.svfAt i).proc s.ctx c x
  pure (s.setSvf i u, y)

/-- `SVF.RST fs` (rule R181). -/
def execSvfRst (fs : Word) (s : State) : Host.Outcome State Fault Refusal := conclude s do
  let t ← s.svfRst fs
  pure (t, [])

/-- `SVF.CFG idx=i mode=type freq, Q, gainDb` (rule R182). -/
def execSvfCfg (idx : BitVec 8) (type : SvfType) (freq q gainDb : Word) (s : State) :
    Host.Outcome State Fault Refusal := conclude s do
  require (bandOk s.params idx) .illegal
  pure (s.setSvf idx.toNat ((s.svfAt idx.toNat).cfg s.ctx ⟨type, freq, q, gainDb⟩), [])

/-- `SVF.PROC ch=c idx=i x` (rule R185). -/
def execSvfProc (ch : BitVec 4) (idx : BitVec 8) (x : Word) (s : State) :
    Host.Outcome State Fault Refusal := conclude s do
  require (channelOk s.params ch && bandOk s.params idx) .illegal
  let (t, y) ← s.svfProc ch.toNat idx.toNat x
  pure (t, [y])

/-- `SVF.GOFF idx=i offsetDb` (rule R186). -/
def execSvfGoff (idx : BitVec 8) (offsetDb : Word) (s : State) : Host.Outcome State Fault Refusal := conclude s do
  let t ← s.svfGoff idx.toNat offsetDb
  pure (t, [])

end Sys2Proof.Machine
end

