-- ==== Sys2Proof/Machine/Dynamics.lean ====
section
/-! DEFINITION. The dynamics units GATE, AGC and DEESS (rules R200 to R223). COMP and FET are in `Sys2Proof/Machine/Compressors.lean`. -/

namespace Sys2Proof.Machine

/-! ### GATE -/

/-- The gate coefficients (rule R203). -/
def gateCoeffs (p : Ctx) (fs : F32) (P : GateP) : GateC where
  openTh := p.db2lin P.threshDb
  closeTh := p.div (p.db2lin P.threshDb) (p.db2lin P.hystDb)
  rangeF := p.db2lin P.rangeDb
  a := envCoefMs p fs P.attackMs
  r := envCoefMs p fs P.releaseMs
  holdSamples := F32.toU32 (F32.floor (p.div (p.mul fs P.holdMs) F32.thousand))

/-- A channel of GATE as RST leaves it (rules R40, R201, R454). -/
def GateS.fresh : GateS := ⟨F32.zero, .closed, 0, F32.one⟩

/-- Recomputes the C registers while `ACTIVE` and `CONFIGURED` (rules R35, R36). -/
def Gate.derive (p : Ctx) (u : Gate) : Gate :=
  if u.life.ready then { u with C := gateCoeffs p u.life.fsEff u.P } else u

/-- `GATE.RST` (rule R201). -/
def Gate.rst (p : Ctx) (u : Gate) (fs : F32) : Except Raised Gate := do
  require (rateOk p.toParams fs) .param
  pure (Gate.derive p { u with life := u.life.reset fs, ch := perChannel p GateS.fresh })

/-- The P registers written, then rule R36 (`GATE.CFG`, rule R202). -/
def Gate.cfg (p : Ctx) (u : Gate) (P : GateP) : Gate := Gate.derive p { u with P := P, life := u.life.configure }

/-- The state machine of the gate: the next `STATE` and `HOLD_CNT` for the envelope `e` (rule R205). -/
def gateNext (c : GateC) (st : GateState) (hold : Word) (e : F32) : GateState × Word :=
  match st with
  | .closed => if F32.lt c.openTh e then (.opened, 0) else (.closed, hold)
  | .opened =>
    if F32.le c.closeTh e then (.opened, 0)
    else if c.holdSamples.toNat ≤ hold.toNat then (.closed, 0)
    else (.opened, hold + 1)

/-- The gain a gate state is smoothed toward (rule R204). -/
def gateTarget (c : GateC) : GateState → F32
  | .opened => F32.one
  | .closed => c.rangeF

/-- The smoothed gain: the attack coefficient when the target is above it, the release coefficient otherwise (rule
R204). -/
def gateGain (p : Ctx) (c : GateC) (gain t : F32) : F32 :=
  onePole p (if F32.lt gain t then c.a else c.r) gain t

/-- One sample of the gate: detect, transition, smooth, apply (rule R204). -/
def gateStep (p : Ctx) (c : GateC) (s : GateS) (x : F32) : GateS × F32 :=
  let e := envStep p c.a c.r s.envelope (F32.abs x)
  let (st, hold) := gateNext c s.state s.holdCnt e
  let gain := gateGain p c s.gain (gateTarget c st)
  (⟨e, st, hold, gain⟩, p.mul x gain)

/-- `GATE.PROC` on channel `c` (rule R204). -/
def Gate.proc (p : Ctx) (u : Gate) (c : Nat) (x : F32) : Except Raised (Gate × F32) := do
  u.life.needReady
  let (t, y) := gateStep p u.C (u.ch.getD c GateS.fresh) x
  pure ({ u with ch := u.ch.set c t }, y)

/-- `GATE.RST fs` (rule R201). -/
def execGateRst (fs : Word) (s : State) : Host.Outcome State Fault Refusal := conclude s do
  let u ← s.gate.rst s.ctx fs
  pure ({ s with gate := u }, [])

/-- `GATE.CFG` (rule R202). -/
def execGateCfg (threshDb rangeDb attackMs holdMs releaseMs hystDb : Word) (s : State) :
    Host.Outcome State Fault Refusal := conclude s do
  pure ({ s with gate := s.gate.cfg s.ctx ⟨threshDb, rangeDb, attackMs, holdMs, releaseMs, hystDb⟩ }, [])

/-- `GATE.PROC` in a state (rule R204). -/
def State.gateProc (s : State) (c : Nat) (x : F32) : Except Raised (State × F32) := do
  let (u, y) ← s.gate.proc s.ctx c x
  pure ({ s with gate := u }, y)

/-- `GATE.PROC ch=c x` (rule R204). -/
def execGateProc (ch : BitVec 4) (x : Word) (s : State) : Host.Outcome State Fault Refusal := conclude s do
  require (channelOk s.params ch) .illegal
  let (t, y) ← s.gateProc ch.toNat x
  pure (t, [y])

/-! ### AGC -/

/-- The coefficients of AGC (rule R211). -/
def agcCoeffs (p : Ctx) (fs : F32) (P : AgcP) : AgcC := ⟨envCoefMs p fs P.attackMs, envCoefMs p fs P.releaseMs⟩

/-- A channel of AGC as RST leaves it (rules R41, R211). -/
def AgcS.fresh : AgcS := ⟨F32.zero, F32.one⟩

/-- Recomputes the C registers while `ACTIVE` and `CONFIGURED` (rules R35, R36). -/
def Agc.derive (p : Ctx) (u : Agc) : Agc :=
  if u.life.ready then { u with C := agcCoeffs p u.life.fsEff u.P } else u

/-- `AGC.RST` (rule R211). -/
def Agc.rst (p : Ctx) (u : Agc) (fs : F32) : Except Raised Agc := do
  require (rateOk p.toParams fs) .param
  pure (Agc.derive p
    { u with life := u.life.reset fs, K := ⟨false, F32.zero, F32.one⟩, ch := perChannel p AgcS.fresh })

/-- The P registers written, then rule R36 (`AGC.CFG`, rule R212). -/
def Agc.cfg (p : Ctx) (u : Agc) (P : AgcP) : Agc := Agc.derive p { u with P := P, life := u.life.configure }

/-- `AGC.EXT` (rule R213). -/
def Agc.ext (p : Ctx) (u : Agc) (mode : Bool) (gainDb : F32) : Except Raised Agc := do
  u.life.needActive
  pure { u with K := ⟨mode, gainDb, p.db2lin gainDb⟩ }

/-- The gain of the internal mode, in dB: the distance to the target, clamped to `±RANGE_DB` (rule R214). -/
def agcGainDb (p : Ctx) (P : AgcP) (e : F32) : F32 :=
  F32.clamp (p.sub P.targetDb (p.lin2db e)) (F32.neg P.rangeDb) P.rangeDb

/-- One sample of AGC (rule R214): the envelope runs in both modes. -/
def agcStep (p : Ctx) (P : AgcP) (K : AgcK) (C : AgcC) (s : AgcS) (x : F32) : AgcS × F32 :=
  let e := envStep p C.a C.r s.envelope (F32.abs x)
  if K.extMode then
    let g := onePole p C.a s.sgain K.extTgt
    (⟨e, g⟩, p.mul x g)
  else if F32.lt e 0x38D1B717 then (⟨e, s.sgain⟩, x)
  else (⟨e, s.sgain⟩, p.mul x (p.db2lin (agcGainDb p P e)))

/-- `AGC.PROC` on channel `c` (rule R214). -/
def Agc.proc (p : Ctx) (u : Agc) (c : Nat) (x : F32) : Except Raised (Agc × F32) := do
  u.life.needReady
  let (t, y) := agcStep p u.P u.K u.C (u.ch.getD c AgcS.fresh) x
  pure ({ u with ch := u.ch.set c t }, y)

/-- `AGC.EXT` in a state (rule R213). -/
def State.agcExt (s : State) (mode : Bool) (gainDb : F32) : Except Raised State := do
  let u ← s.agc.ext s.ctx mode gainDb
  pure { s with agc := u }

/-- `AGC.PROC` in a state (rule R214). -/
def State.agcProc (s : State) (c : Nat) (x : F32) : Except Raised (State × F32) := do
  let (u, y) ← s.agc.proc s.ctx c x
  pure ({ s with agc := u }, y)

/-- `AGC.RST fs` (rule R211). -/
def execAgcRst (fs : Word) (s : State) : Host.Outcome State Fault Refusal := conclude s do
  let u ← s.agc.rst s.ctx fs
  pure ({ s with agc := u }, [])

/-- `AGC.CFG` (rule R212). -/
def execAgcCfg (targetDb rangeDb attackMs releaseMs : Word) (s : State) :
    Host.Outcome State Fault Refusal := conclude s do
  pure ({ s with agc := s.agc.cfg s.ctx ⟨targetDb, rangeDb, attackMs, releaseMs⟩ }, [])

/-- `AGC.PROC ch=c x` (rule R214). -/
def execAgcProc (ch : BitVec 4) (x : Word) (s : State) : Host.Outcome State Fault Refusal := conclude s do
  require (channelOk s.params ch) .illegal
  let (t, y) ← s.agcProc ch.toNat x
  pure (t, [y])

/-- `AGC.EXT mode=m externalGainDb` (rule R213). -/
def execAgcExt (extMode : Bool) (gainDb : Word) (s : State) : Host.Outcome State Fault Refusal := conclude s do
  let t ← s.agcExt extMode gainDb
  pure (t, [])

/-! ### DEESS -/

/-- The de-esser coefficients (rule R221): the crossover is the ZDF LowPass with `Q = XOVER_Q`. -/
def deessCoeffs (p : Ctx) (fs : F32) (P : DeessP) : DeessC :=
  let x := svfCoeffs p P.freq p.xoverQ F32.zero fs
  { thLin := p.db2lin P.threshDb
    expo := p.sub (p.div F32.one (ratioE P.ratio)) F32.one
    floorG := p.db2lin (F32.neg P.maxRedDb)
    a := envCoefMs p fs P.attackMs
    r := envCoefMs p fs P.releaseMs
    xg := x.g
    xr := x.r
    xd := x.d }

/-- A channel of DEESS as RST leaves it (rules R42, R219). -/
def DeessS.fresh : DeessS := ⟨F32.zero, F32.zero, F32.zero⟩

/-- Recomputes the C registers while `ACTIVE` and `CONFIGURED` (rules R35, R36). -/
def Deess.derive (p : Ctx) (u : Deess) : Deess :=
  if u.life.ready then { u with C := deessCoeffs p u.life.fsEff u.P } else u

/-- `DEESS.RST` (rule R219). -/
def Deess.rst (p : Ctx) (u : Deess) (fs : F32) : Except Raised Deess := do
  require (rateOk p.toParams fs) .param
  pure (Deess.derive p { u with life := u.life.reset fs, ch := perChannel p DeessS.fresh })

/-- The P registers written, then rule R36 (`DEESS.CFG`, rule R220). -/
def Deess.cfg (p : Ctx) (u : Deess) (P : DeessP) : Deess :=
  Deess.derive p { u with P := P, life := u.life.configure }

/-- The gain of the high band for the envelope `e` (rule R222). -/
def deessGain (p : Ctx) (c : DeessC) (e : F32) : F32 :=
  if F32.lt c.thLin e then F32.fmax (Num.pow (p.div e c.thLin) c.expo) c.floorG else F32.one

/-- One sample of the de-esser (rule R222). -/
def deessStep (p : Ctx) (c : DeessC) (s : DeessS) (x : F32) : DeessS × F32 :=
  let (xs, low) := svfStep p ⟨c.xg, c.xr, c.xd, F32.zero⟩ .lowPass ⟨s.xs1, s.xs2⟩ x
  let high := p.sub x low
  let e := envStep p c.a c.r s.envelope (F32.abs high)
  (⟨xs.s1, xs.s2, e⟩, p.add low (p.mul high (deessGain p c e)))

/-- `DEESS.PROC` on channel `c` (rule R222). -/
def Deess.proc (p : Ctx) (u : Deess) (c : Nat) (x : F32) : Except Raised (Deess × F32) := do
  u.life.needReady
  let (t, y) := deessStep p u.C (u.ch.getD c DeessS.fresh) x
  pure ({ u with ch := u.ch.set c t }, y)

/-- `DEESS.PROC` in a state (rule R222). -/
def State.deessProc (s : State) (c : Nat) (x : F32) : Except Raised (State × F32) := do
  let (u, y) ← s.deess.proc s.ctx c x
  pure ({ s with deess := u }, y)

/-- `DEESS.RST fs` (rule R219). -/
def execDeessRst (fs : Word) (s : State) : Host.Outcome State Fault Refusal := conclude s do
  let u ← s.deess.rst s.ctx fs
  pure ({ s with deess := u }, [])

/-- `DEESS.CFG` (rule R220). -/
def execDeessCfg (freq threshDb ratio attackMs releaseMs maxRedDb : Word) (s : State) :
    Host.Outcome State Fault Refusal := conclude s do
  pure ({ s with deess := s.deess.cfg s.ctx ⟨freq, threshDb, ratio, attackMs, releaseMs, maxRedDb⟩ }, [])

/-- `DEESS.PROC ch=c x` (rule R222). -/
def execDeessProc (ch : BitVec 4) (x : Word) (s : State) : Host.Outcome State Fault Refusal := conclude s do
  require (channelOk s.params ch) .illegal
  let (t, y) ← s.deessProc ch.toNat x
  pure (t, [y])

end Sys2Proof.Machine
end

