-- ==== Sys2Proof/Machine/Multirate.lean ====
section
/-! DEFINITION. OS, the 4x polyphase oversampler with its tap ROM, and LIM, the lookahead true-peak limiter (rules R340 to R356). -/

namespace Sys2Proof.Machine

/-! ### OS -/

/-- `OS_H[0..31]` (rule R343). -/
def osHalf : List F32 :=
  [0x00000000, 0xB71152BB, 0xB817D8CA, 0xB815030D,
   0x388C7477, 0x398D5539, 0x39DA4F16, 0x39849842,
   0xB9BB3301, 0xBA9AF33D, 0xBACFA39F, 0xBA622724,
   0x3A924B67, 0x3B6156ED, 0x3B8E0F61, 0x3B12D856,
   0xBB3592AB, 0xBC0673A5, 0xBC23DFE3, 0xBBA497A1,
   0x3BC6C4FF, 0x3C90899F, 0x3CAE0D48, 0x3C2DF2EF,
   0xBC52DFE4, 0xBD1BB2FA, 0xBD4167A9, 0xBCCC1485,
   0x3D07947B, 0x3DEAD313, 0x3E46E97D, 0x3E7933A4]

/-- The ROM `OS_H[0..63]`: `OS_H[63 - n] = OS_H[n]`, bit for bit (rule R343). -/
def osTaps : List F32 := osHalf ++ osHalf.reverse

/-- `OS_H[4k + ph]` for `k` in 0..15 (rule R344). -/
def osPhase (ph : Nat) : List F32 := (List.range 16).map (fun k => osTaps.getD (4 * k + ph) 0)

/-- A dot product accumulated in ascending order from `+0.0` (rules R344, R345). -/
def dot (p : Ctx) (hs xs : List F32) : F32 :=
  (List.zipWith (fun h x => p.mul h x) hs xs).foldl p.add F32.zero

/-- A history of `n` samples with `x` pushed at its front (rule R82). -/
def push (n : Nat) (x : F32) (hist : List F32) : List F32 := (x :: hist).take n

/-- A channel of OS as RST leaves it (rule R341). -/
def OsS.fresh : OsS := ⟨List.replicate 16 F32.zero, List.replicate 64 F32.zero⟩

/-- `OS.RST` (rule R341): it takes no rate, and `FS_EFF` becomes `+0.0`. -/
def Os.rst (p : Ctx) (u : Os) : Os := { life := u.life.reset F32.zero, ch := perChannel p OsS.fresh }

/-- Output `ph` of the upsampler (rule R344). -/
def osUpPhase (p : Ctx) (uph : List F32) (ph : Nat) : F32 := p.mul F32.four (dot p (osPhase ph) uph)

/-- `OS.UP` on channel `c` (rule R344): the four outputs, earliest first. -/
def Os.up (p : Ctx) (u : Os) (c : Nat) (x : F32) : Except Raised (Os × F32 × F32 × F32 × F32) := do
  u.life.needActive
  let s := u.ch.getD c OsS.fresh
  let uph := push 16 x s.uph
  pure ({ u with ch := u.ch.set c { s with uph := uph } },
    osUpPhase p uph 0, osUpPhase p uph 1, osUpPhase p uph 2, osUpPhase p uph 3)

/-- `OS.DOWN` on channel `c` (rule R345). -/
def Os.down (p : Ctx) (u : Os) (c : Nat) (u0 u1 u2 u3 : F32) : Except Raised (Os × F32) := do
  u.life.needActive
  let s := u.ch.getD c OsS.fresh
  let dnh := push 64 u3 (push 64 u2 (push 64 u1 (push 64 u0 s.dnh)))
  pure ({ u with ch := u.ch.set c { s with dnh := dnh } }, dot p osTaps dnh)

/-- `OS.UP` in a state (rule R344). -/
def State.osUp (s : State) (c : Nat) (x : F32) : Except Raised (State × F32 × F32 × F32 × F32) := do
  let (u, ys) ← s.os.up s.ctx c x
  pure ({ s with os := u }, ys)

/-- `OS.DOWN` in a state (rule R345). -/
def State.osDown (s : State) (c : Nat) (u0 u1 u2 u3 : F32) : Except Raised (State × F32) := do
  let (u, y) ← s.os.down s.ctx c u0 u1 u2 u3
  pure ({ s with os := u }, y)

/-- `OS.RST` (rule R341). -/
def execOsRst (s : State) : Host.Outcome State Fault Refusal := conclude s do
  pure ({ s with os := s.os.rst s.ctx }, [])

/-- `OS.UP ch=c x` (rule R344). -/
def execOsUp (ch : BitVec 4) (x : Word) (s : State) : Host.Outcome State Fault Refusal := conclude s do
  require (channelOk s.params ch) .illegal
  let (t, y0, y1, y2, y3) ← s.osUp ch.toNat x
  pure (t, [y0, y1, y2, y3])

/-- `OS.DOWN ch=c u0, u1, u2, u3` (rule R345). -/
def execOsDown (ch : BitVec 4) (u0 u1 u2 u3 : Word) (s : State) : Host.Outcome State Fault Refusal := conclude s do
  require (channelOk s.params ch) .illegal
  let (t, y) ← s.osDown ch.toNat u0 u1 u2 u3
  pure (t, [y])

/-! ### LIM -/

/-- `cap(LIM.LB)` (rule R81). -/
def limCap (p : Ctx) (fs : F32) : Nat :=
  (F32.toU32 (F32.floor (p.div (p.mul fs p.limLaMaxMs) F32.thousand))).toNat + 4

/-- The coefficients of LIM (rule R353). -/
def limCoeffs (p : Ctx) (fs : F32) (P : LimP) : LimC where
  ceilLin := p.db2lin P.ceilingDb
  rel := envCoefMs p fs P.releaseMs
  la := BitVec.ofNat 32
    (min (F32.toU32 (F32.floor (p.div (p.mul fs P.lookaheadMs) F32.thousand))).toNat (limCap p fs - 4))

/-- A channel of LIM as RST leaves it, with a ring of `cap` cells (rule R351). -/
def LimS.fresh (cap : Nat) : LimS := ⟨0, F32.one, Memory.sized cap⟩

/-- Recomputes the C registers while `ACTIVE` and `CONFIGURED` (rules R35, R36). -/
def Lim.derive (p : Ctx) (u : Lim) : Lim :=
  if u.life.ready then { u with C := limCoeffs p u.life.fsEff u.P } else u

/-- `LIM.RST` (rule R351). -/
def Lim.rst (p : Ctx) (u : Lim) (fs : F32) : Except Raised Lim := do
  require (rateOk p.toParams fs) .param
  pure (Lim.derive p { u with life := u.life.reset fs, ch := perChannel p (LimS.fresh (limCap p fs)) })

/-- The P registers written, then rule R36 (`LIM.CFG`, rule R352). -/
def Lim.cfg (p : Ctx) (u : Lim) (P : LimP) : Lim := Lim.derive p { u with P := P, life := u.life.configure }

/-- `-0.0625` (rule R354). -/
def limOuter : F32 := 0xBD800000
/-- `0.5625` (rule R354). -/
def limInner : F32 := 0x3F100000

/-- `tp`, the interpolated peak of the four most recent samples, oldest first (rule R354). -/
def truePeak (p : Ctx) (s3 s2 s1 x : F32) : F32 :=
  p.add (p.add (p.add (p.mul limOuter s3) (p.mul limInner s2)) (p.mul limInner s1)) (p.mul limOuter x)

/-- The target gain for a peak (rule R354). -/
def limTarget (p : Ctx) (ceil peak : F32) : F32 := if F32.lt ceil peak then p.div ceil peak else F32.one

/-- The gain envelope after a target: instantaneous attack, exponential release (rule R354). -/
def limEnvelope (p : Ctx) (rel genv tgt : F32) : F32 :=
  if F32.lt tgt genv then tgt else p.add (p.mul rel (p.sub genv tgt)) tgt

/-- One sample of the limiter (rule R354). -/
def limStep (p : Ctx) (C : LimC) (s : LimS) (x : F32) : LimS × F32 :=
  let m := s.lb.write s.wpos.toNat x
  let tp := truePeak p (s.lb.back s.wpos 3) (s.lb.back s.wpos 2) (s.lb.back s.wpos 1) x
  let genv := limEnvelope p C.rel s.genv (limTarget p C.ceilLin (F32.fmax (F32.abs x) (F32.abs tp)))
  (⟨nextCursor s.wpos s.lb.cap, genv, m⟩, p.mul (m.back s.wpos C.la.toNat) genv)

/-- `LIM.PROC` on channel `c` (rule R354). -/
def Lim.proc (p : Ctx) (u : Lim) (c : Nat) (x : F32) : Except Raised (Lim × F32) := do
  u.life.needReady
  let (t, y) := limStep p u.C (u.ch.getD c (LimS.fresh 0)) x
  pure ({ u with ch := u.ch.set c t }, y)

/-- `LIM.PROC` in a state (rule R354). -/
def State.limProc (s : State) (c : Nat) (x : F32) : Except Raised (State × F32) := do
  let (u, y) ← s.lim.proc s.ctx c x
  pure ({ s with lim := u }, y)

/-- `LIM.RST fs` (rule R351). -/
def execLimRst (fs : Word) (s : State) : Host.Outcome State Fault Refusal := conclude s do
  let u ← s.lim.rst s.ctx fs
  pure ({ s with lim := u }, [])

/-- `LIM.CFG ceilingDb, releaseMs, lookaheadMs` (rule R352). -/
def execLimCfg (ceilingDb releaseMs lookaheadMs : Word) (s : State) :
    Host.Outcome State Fault Refusal := conclude s do
  pure ({ s with lim := s.lim.cfg s.ctx ⟨ceilingDb, releaseMs, lookaheadMs⟩ }, [])

/-- `LIM.PROC ch=c x` (rule R354). -/
def execLimProc (ch : BitVec 4) (x : Word) (s : State) : Host.Outcome State Fault Refusal := conclude s do
  require (channelOk s.params ch) .illegal
  let (t, y) ← s.limProc ch.toNat x
  pure (t, [y])

end Sys2Proof.Machine
end

