-- ==== Sys2Proof/Machine/Buffers.lean ====
section
/-! DEFINITION. PITCH, the granular pitch stabilizer, and DLY, the delay line, with their two fractional reads of a ring memory (rules R280 to R299). -/

namespace Sys2Proof.Machine

/-! ### PITCH -/

/-- `cap(PITCH.MEM)` (rule R81). -/
def pitchCap (p : Ctx) (fs : F32) : Nat :=
  (F32.toU32 (F32.floor (p.div (p.mul fs F32.twoHundred) F32.thousand))).toNat + 4

/-- `semis`, from the amount clamped to 0..100 (rule R282). -/
def pitchSemis (p : Ctx) (amount : F32) : F32 :=
  p.mul (p.div (p.sub (F32.clamp amount F32.zero F32.hundred) F32.fifty) F32.fifty) F32.twelve

/-- `RATIO` (rule R282). -/
def pitchRatio (p : Ctx) (amount : F32) : F32 := Num.pow F32.two (p.div (pitchSemis p amount) F32.twelve)

/-- `WIN`, between 2 samples and what the ring of `cap` cells holds (rule R282). -/
def pitchWin (p : Ctx) (fs windowMs : F32) (cap : Nat) : F32 :=
  F32.clamp (F32.floor (p.div (p.mul fs windowMs) F32.thousand)) F32.two (F32.fmax F32.two (F32.ofNat (cap - 4)))

/-- The coefficients of PITCH (rule R282). -/
def pitchCoeffs (p : Ctx) (fs : F32) (P : PitchP) : PitchC where
  ratio := pitchRatio p P.amount
  step := p.sub F32.one (pitchRatio p P.amount)
  win := pitchWin p fs P.windowMs (pitchCap p fs)

/-- A channel of PITCH as RST leaves it, with a ring of `cap` cells (rule R281). -/
def PitchS.fresh (cap : Nat) : PitchS := ⟨0, F32.zero, Memory.sized cap⟩

/-- Recomputes the C registers while `ACTIVE` and `CONFIGURED` (rules R35, R36). -/
def Pitch.derive (p : Ctx) (u : Pitch) : Pitch :=
  if u.life.ready then { u with C := pitchCoeffs p u.life.fsEff u.P } else u

/-- `PITCH.RST` (rule R281). -/
def Pitch.rst (p : Ctx) (u : Pitch) (fs : F32) : Except Raised Pitch := do
  require (rateOk p.toParams fs) .param
  pure (Pitch.derive p { u with life := u.life.reset fs, ch := perChannel p (PitchS.fresh (pitchCap p fs)) })

/-- The P registers written, then rule R36 (`PITCH.CFG`, rule R283). -/
def Pitch.cfg (p : Ctx) (u : Pitch) (P : PitchP) : Pitch :=
  Pitch.derive p { u with P := P, life := u.life.configure }

/-- `pitch_read(d)`: the two-point linear read behind the cursor `w` (rule R286); `i + 1` is a `u32` (log entry 13). -/
def pitchRead (p : Ctx) (m : Memory) (w : Word) (d : F32) : F32 :=
  let i := F32.toU32 (F32.floor d)
  let s0 := m.back w i.toNat
  p.add s0 (p.mul (p.sub d (F32.floor d)) (p.sub (m.back w (i + 1).toNat) s0))

/-- `dB`: half a window behind tap A, less the window where that reaches it (rule R284). -/
def pitchTapB (p : Ctx) (win dA : F32) : F32 :=
  let d := p.add dA (p.div win F32.two)
  if F32.le win d then p.sub d win else d

/-- The triangular weight of tap A (rule R284). -/
def pitchWeight (p : Ctx) (win dA : F32) : F32 :=
  p.sub F32.one (F32.abs (p.sub (p.div (p.mul F32.two dA) win) F32.one))

/-- `PHASE` after a sample, wrapped into the window (rule R285). -/
def pitchPhase (p : Ctx) (C : PitchC) (phase : F32) : F32 :=
  let a := p.add phase C.step
  let b := if F32.le C.win a then p.sub a C.win else a
  if F32.lt b F32.zero then p.add b C.win else b

/-- One sample of the pitch stabilizer: write first, then the two taps (rule R285). -/
def pitchStep (p : Ctx) (C : PitchC) (s : PitchS) (x : F32) : PitchS × F32 :=
  let m := s.mem.write s.wpos.toNat x
  let a := pitchRead p m s.wpos s.phase
  let b := pitchRead p m s.wpos (pitchTapB p C.win s.phase)
  let gA := pitchWeight p C.win s.phase
  (⟨nextCursor s.wpos s.mem.cap, pitchPhase p C s.phase, m⟩,
   p.add (p.mul a gA) (p.mul b (p.sub F32.one gA)))

/-- `PITCH.PROC` on channel `c` (rule R285). -/
def Pitch.proc (p : Ctx) (u : Pitch) (c : Nat) (x : F32) : Except Raised (Pitch × F32) := do
  u.life.needReady
  let (t, y) := pitchStep p u.C (u.ch.getD c (PitchS.fresh 0)) x
  pure ({ u with ch := u.ch.set c t }, y)

/-- `PITCH.PROC` in a state (rule R285). -/
def State.pitchProc (s : State) (c : Nat) (x : F32) : Except Raised (State × F32) := do
  let (u, y) ← s.pitch.proc s.ctx c x
  pure ({ s with pitch := u }, y)

/-- `PITCH.RST fs` (rule R281). -/
def execPitchRst (fs : Word) (s : State) : Host.Outcome State Fault Refusal := conclude s do
  let u ← s.pitch.rst s.ctx fs
  pure ({ s with pitch := u }, [])

/-- `PITCH.CFG amount, windowMs` (rule R283). -/
def execPitchCfg (amount windowMs : Word) (s : State) : Host.Outcome State Fault Refusal := conclude s do
  pure ({ s with pitch := s.pitch.cfg s.ctx ⟨amount, windowMs⟩ }, [])

/-- `PITCH.PROC ch=c x` (rule R285). -/
def execPitchProc (ch : BitVec 4) (x : Word) (s : State) : Host.Outcome State Fault Refusal := conclude s do
  require (channelOk s.params ch) .illegal
  let (t, y) ← s.pitchProc ch.toNat x
  pure (t, [y])

/-! ### DLY -/

/-- `cap(DLY.MEM)` (rule R81; log entry 22). -/
def dlyCap (p : Ctx) (fs : F32) : Nat := (F32.toU32 (F32.floor (p.mul F32.two fs))).toNat + 16

/-- `TARGET` (rule R293). -/
def dlyTarget (p : Ctx) (fs timeMs : F32) : F32 :=
  F32.clamp (p.div (p.mul fs timeMs) F32.thousand) F32.two (F32.fmax F32.two (F32.floor (p.mul F32.two fs)))

/-- Recomputes `TARGET` while `ACTIVE` and `CONFIGURED` (rules R35, R36, R293). -/
def Dly.derive (p : Ctx) (u : Dly) : Dly :=
  if u.life.ready then { u with target := dlyTarget p u.life.fsEff u.P.timeMs } else u

/-- `CURRENT[c] <- TARGET` for every channel, and the pending snap is done (rule R296). -/
def Dly.jump (u : Dly) : Dly := { u with snap := false, ch := u.ch.map (fun s => { s with current := u.target }) }

/-- A channel of DLY as RST leaves it before rule R296 sets `CURRENT`, with a ring of `cap` cells (rule R291). -/
def DlyS.fresh (cap : Nat) : DlyS := ⟨F32.two, 0, Memory.sized cap⟩

/-- What `DLY.RST` does after its check (rules R291, R296): `CURRENT` starts at `TARGET`, or at 2.0 with a snap
pending while nothing is configured. -/
def Dly.restart (p : Ctx) (u : Dly) (fs : F32) : Dly :=
  let v := Dly.derive p
    { u with life := u.life.reset fs, snap := true, ch := perChannel p (DlyS.fresh (dlyCap p fs)) }
  if v.life.configured then v.jump else v

/-- `DLY.RST` (rule R291). -/
def Dly.rst (p : Ctx) (u : Dly) (fs : F32) : Except Raised Dly := do
  require (rateOk p.toParams fs) .param
  pure (u.restart p fs)

/-- The P registers written, then rule R36 and the snap rule (`DLY.CFG`, rules R292, R296). -/
def Dly.cfg (p : Ctx) (u : Dly) (P : DlyP) : Dly :=
  let v := Dly.derive p { u with P := P, life := u.life.configure }
  if v.life.active && v.snap then v.jump else v

/-- `CURRENT` one step nearer to `TARGET` (rule R294). -/
def dlyGlide (p : Ctx) (current target : F32) : F32 :=
  p.add (p.mul 0x3F7FBE77 current) (p.mul 0x3A83126F target)

/-- The four Lagrange coefficients at the fraction `d`: `cm1, c0, c1, c2` (rule R298). -/
def lagrange (p : Ctx) (d : F32) : F32 × F32 × F32 × F32 :=
  let dm1 := p.sub d F32.one
  let dm2 := p.sub d F32.two
  let dp1 := p.add d F32.one
  (F32.neg (p.div (p.mul (p.mul d dm1) dm2) F32.six),
   p.div (p.mul (p.mul dp1 dm1) dm2) F32.two,
   F32.neg (p.div (p.mul (p.mul dp1 d) dm2) F32.two),
   p.div (p.mul (p.mul dp1 d) dm1) F32.six)

/-- `dly_read(D)`: the four-point Lagrange read behind the cursor `w` (rule R298); `i - 1`, `i + 1` and `i + 2` are
`u32` (log entry 13). -/
def dlyRead (p : Ctx) (m : Memory) (w : Word) (D : F32) : F32 :=
  let i := F32.toU32 (F32.floor D)
  let (cm1, c0, c1, c2) := lagrange p (p.sub D (F32.floor D))
  p.add
    (p.add (p.add (p.mul cm1 (m.back w (i - 1).toNat)) (p.mul c0 (m.back w i.toNat)))
      (p.mul c1 (m.back w (i + 1).toNat)))
    (p.mul c2 (m.back w (i + 2).toNat))

/-- `(x * (1.0 - MIX)) + (wet * MIX)`, the mix law of DLY, RVS and FDN (rules R297, R314, R325). -/
def wetMix (p : Ctx) (mix x wet : F32) : F32 := p.add (p.mul x (p.sub F32.one mix)) (p.mul wet mix)

/-- One sample of the delay line: glide, read, write, advance (rule R297). -/
def dlyStep (p : Ctx) (P : DlyP) (target : F32) (s : DlyS) (x : F32) : DlyS × F32 :=
  let current := dlyGlide p s.current target
  let delayed := dlyRead p s.mem s.wpos current
  (⟨current, nextCursor s.wpos s.mem.cap,
    s.mem.write s.wpos.toNat (p.add x (p.softclip (p.mul P.feedback delayed)))⟩,
   wetMix p P.mix x delayed)

/-- `DLY.PROC` on channel `c` (rule R297). -/
def Dly.proc (p : Ctx) (u : Dly) (c : Nat) (x : F32) : Except Raised (Dly × F32) := do
  u.life.needReady
  let (t, y) := dlyStep p u.P u.target (u.ch.getD c (DlyS.fresh 0)) x
  pure ({ u with ch := u.ch.set c t }, y)

/-- `DLY.PROC` in a state (rule R297). -/
def State.dlyProc (s : State) (c : Nat) (x : F32) : Except Raised (State × F32) := do
  let (u, y) ← s.dly.proc s.ctx c x
  pure ({ s with dly := u }, y)

/-- `DLY.RST fs` (rule R291). -/
def execDlyRst (fs : Word) (s : State) : Host.Outcome State Fault Refusal := conclude s do
  let u ← s.dly.rst s.ctx fs
  pure ({ s with dly := u }, [])

/-- `DLY.CFG timeMs, feedback, mix` (rule R292). -/
def execDlyCfg (timeMs feedback mix : Word) (s : State) : Host.Outcome State Fault Refusal := conclude s do
  pure ({ s with dly := s.dly.cfg s.ctx ⟨timeMs, feedback, mix⟩ }, [])

/-- `DLY.PROC ch=c x` (rule R297). -/
def execDlyProc (ch : BitVec 4) (x : Word) (s : State) : Host.Outcome State Fault Refusal := conclude s do
  require (channelOk s.params ch) .illegal
  let (t, y) ← s.dlyProc ch.toNat x
  pure (t, [y])

end Sys2Proof.Machine
end

