-- ==== Sys2Proof/Machine/Reverb.lean ====
section
/-! DEFINITION. The two reverbs: RVS, parallel combs and series allpasses, and FDN, the eight-line feedback delay network (rules R310 to R326). -/

namespace Sys2Proof.Machine

/-! ### RVS -/

/-- `scale_len(ref, fs)` (rule R312). -/
def rvsLen (p : Ctx) (ref : Nat) (fs : F32) : Word :=
  let n := F32.toU32 (F32.floor (p.add (p.div (p.mul (F32.ofNat ref) fs) p.refFs) F32.half))
  if n = 0 then 1 else n

/-- `CLEN[0..7]` (rule R312). -/
def rvsClen (p : Ctx) (fs : F32) : List Word := (List.range 8).map (fun i => rvsLen p (p.rvsCombRef.getD i 1) fs)

/-- `ALEN[0..3]`: the lengths past NAP are 1 (rule R312). -/
def rvsAlen (p : Ctx) (fs : F32) : List Word :=
  (List.range 4).map (fun j => if j < p.nap then rvsLen p (p.rvsApRef.getD j 1) fs else 1)

/-- Comb `i` as RST leaves it (rule R311). -/
def RvsComb.fresh (len : Word) : RvsComb := ⟨0, F32.zero, Memory.sized len.toNat⟩

/-- Allpass `j` as RST leaves it (rule R311; log entry 19 for `j` past NAP). -/
def RvsAp.fresh (len : Word) : RvsAp := ⟨0, Memory.sized len.toNat⟩

/-- The combs and the allpasses of a channel as RST leaves them (rule R311). -/
def RvsS.fresh (clen alen : List Word) : RvsS := ⟨clen.map RvsComb.fresh, alen.map RvsAp.fresh⟩

/-- `RVS.RST` (rule R311). -/
def Rvs.rst (p : Ctx) (u : Rvs) (fs : F32) : Except Raised Rvs := do
  require (rateOk p.toParams fs) .param
  pure { u with
    life := u.life.reset fs, clen := rvsClen p fs, alen := rvsAlen p fs
    ch := perChannel p (RvsS.fresh (rvsClen p fs) (rvsAlen p fs)) }

/-- `RVS.CFG` (rule R313): RVS has no C register. -/
def Rvs.cfg (u : Rvs) (P : RvsP) : Rvs := { u with P := P, life := u.life.configure }

/-- One comb of `len` cells: the echo it reads, and the comb after it (rule R314). -/
def combStep (p : Ctx) (P : RvsP) (len : Word) (x : F32) (c : RvsComb) : RvsComb × F32 :=
  let o := c.mem.read c.idx.toNat
  let filt := p.add (p.mul o (p.sub F32.one P.damp)) (p.mul c.filt P.damp)
  (⟨nextCursor c.idx len.toNat, filt, c.mem.write c.idx.toNat (p.add x (p.mul filt P.room))⟩, o)

/-- The combs in order, with the running sum of their echoes (rule R314). -/
def combBank (p : Ctx) (P : RvsP) (x : F32) : List Word → List RvsComb → F32 → List RvsComb × F32
  | len :: lens, c :: cs, acc =>
    let (c', o) := combStep p P len x c
    let (rest, sum) := combBank p P x lens cs (p.add acc o)
    (c' :: rest, sum)
  | _, cs, acc => (cs, acc)

/-- One allpass of `len` cells (rule R314). -/
def allpassStep (p : Ctx) (len : Word) (v : F32) (a : RvsAp) : RvsAp × F32 :=
  let dl := a.mem.read a.idx.toNat
  let w := p.add v (p.mul F32.half dl)
  (⟨nextCursor a.idx len.toNat, a.mem.write a.idx.toNat w⟩, p.sub dl (p.mul F32.half w))

/-- The first `n` allpasses in series (rule R314). -/
def allpassChain (p : Ctx) : Nat → List Word → List RvsAp → F32 → List RvsAp × F32
  | n + 1, len :: lens, a :: as, v =>
    let (a', v') := allpassStep p len v a
    let (rest, y) := allpassChain p n lens as v'
    (a' :: rest, y)
  | _, _, as, v => (as, v)

/-- One sample of the Schroeder reverb (rule R314). -/
def rvsStep (p : Ctx) (P : RvsP) (clen alen : List Word) (s : RvsS) (x : F32) : RvsS × F32 :=
  let (combs, acc) := combBank p P x clen s.combs F32.zero
  let (aps, v) := allpassChain p p.nap alen s.aps (p.div acc F32.eight)
  (⟨combs, aps⟩, wetMix p P.mix x v)

/-- `RVS.PROC` on channel `c` (rule R314). -/
def Rvs.proc (p : Ctx) (u : Rvs) (c : Nat) (x : F32) : Except Raised (Rvs × F32) := do
  u.life.needReady
  let (t, y) := rvsStep p u.P u.clen u.alen (u.ch.getD c ⟨[], []⟩) x
  pure ({ u with ch := u.ch.set c t }, y)

/-- `RVS.PROC` in a state (rule R314). -/
def State.rvsProc (s : State) (c : Nat) (x : F32) : Except Raised (State × F32) := do
  let (u, y) ← s.rvs.proc s.ctx c x
  pure ({ s with rvs := u }, y)

/-- `RVS.RST fs` (rule R311). -/
def execRvsRst (fs : Word) (s : State) : Host.Outcome State Fault Refusal := conclude s do
  let u ← s.rvs.rst s.ctx fs
  pure ({ s with rvs := u }, [])

/-- `RVS.CFG room, damp, mix` (rule R313). -/
def execRvsCfg (room damp mix : Word) (s : State) : Host.Outcome State Fault Refusal := conclude s do
  pure ({ s with rvs := s.rvs.cfg ⟨room, damp, mix⟩ }, [])

/-- `RVS.PROC ch=c x` (rule R314). -/
def execRvsProc (ch : BitVec 4) (x : Word) (s : State) : Host.Outcome State Fault Refusal := conclude s do
  require (channelOk s.params ch) .illegal
  let (t, y) ← s.rvsProc ch.toNat x
  pure (t, [y])

/-! ### FDN -/

/-- `cap(FDN.LB[i])` (rules R81, R323). -/
def fdnCap (p : Ctx) (fs : F32) : Nat :=
  (F32.toU32 (F32.floor (p.div (p.mul fs F32.ninety) F32.thousand))).toNat + 1

/-- `raw[i]` (rule R323). -/
def fdnRaw (p : Ctx) (sz fs : F32) (i : Nat) : Word :=
  F32.toU32 (F32.floor
    (p.add (p.div (p.mul (p.mul (F32.ofNat (p.fdnLenRefAt i)) (p.fdnScale sz)) fs) p.refFs) F32.half))

/-- `LEN[i] = max(1, min(raw[i], cap - 1))` (rule R323). -/
def fdnLen (p : Ctx) (sz fs : F32) (i : Nat) : Word :=
  BitVec.ofNat 32 (max 1 (min (fdnRaw p sz fs i).toNat (fdnCap p fs - 1)))

/-- The coefficients of FDN, from the size clamped to 0..1 (rule R323). -/
def fdnCoeffs (p : Ctx) (fs : F32) (P : FdnP) : FdnC where
  fbgain := p.fdnGain (F32.clamp P.size F32.zero F32.one)
  len := (List.range 8).map (fdnLen p (F32.clamp P.size F32.zero F32.one) fs)

/-- A channel of FDN as RST leaves it, with eight lines of `cap` cells (rule R321). -/
def FdnS.fresh (cap : Nat) : FdnS := ⟨0, List.replicate 8 F32.zero, List.replicate 8 (Memory.sized cap)⟩

/-- Recomputes the C registers while `ACTIVE` and `CONFIGURED` (rules R35, R36). -/
def Fdn.derive (p : Ctx) (u : Fdn) : Fdn :=
  if u.life.ready then { u with C := fdnCoeffs p u.life.fsEff u.P } else u

/-- `FDN.RST` (rule R321). -/
def Fdn.rst (p : Ctx) (u : Fdn) (fs : F32) : Except Raised Fdn := do
  require (rateOk p.toParams fs) .param
  pure (Fdn.derive p { u with life := u.life.reset fs, ch := perChannel p (FdnS.fresh (fdnCap p fs)) })

/-- The P registers written, then rule R36 (`FDN.CFG`, rule R322). -/
def Fdn.cfg (p : Ctx) (u : Fdn) (P : FdnP) : Fdn := Fdn.derive p { u with P := P, life := u.life.configure }

/-- One butterfly stage of span `h`: sums in the low half of every block of `2h`, differences in the high half (rule
R324). -/
def butterfly (p : Ctx) (h : Nat) (v : List F32) : List F32 :=
  (List.range 8).map (fun j =>
    if j / h % 2 = 0 then p.add (v.getD j 0) (v.getD (j + h) 0) else p.sub (v.getD (j - h) 0) (v.getD j 0))

/-- `hadamard8`: the three stages, then the normalisation (rule R324). -/
def hadamard8 (p : Ctx) (v : List F32) : List F32 :=
  (butterfly p 4 (butterfly p 2 (butterfly p 1 v))).map (fun x => p.mul x F32.invSqrt8)

/-- The sum of a list from the left, starting at its first element (rule R325). -/
def sumLeft (p : Ctx) : List F32 → F32
  | [] => F32.zero
  | a :: rest => rest.foldl p.add a

/-- The damping stores after a sample (rule R325). -/
def fdnDamp (p : Ctx) (damp : F32) (m lp : List F32) : List F32 :=
  List.zipWith (fun mi li => p.add (p.mul mi (p.sub F32.one damp)) (p.mul li damp)) m lp

/-- One sample of the feedback delay network: read, mix, damp, feed back with the input and clip (rule R325). -/
def fdnStep (p : Ctx) (P : FdnP) (C : FdnC) (s : FdnS) (x : F32) : FdnS × F32 :=
  let d := List.zipWith (fun m (len : Word) => m.back s.wpos len.toNat) s.lb C.len
  let lp := fdnDamp p P.damp (hadamard8 p d) s.lp
  let lb := List.zipWith
    (fun m l => m.write s.wpos.toNat (p.softclip (p.add x (p.mul C.fbgain l)))) s.lb lp
  (⟨nextCursor s.wpos (s.lb.headD Memory.unsized).cap, lp, lb⟩,
   wetMix p P.mix x (p.div (sumLeft p d) F32.eight))

/-- `FDN.PROC` on channel `c` (rule R325). -/
def Fdn.proc (p : Ctx) (u : Fdn) (c : Nat) (x : F32) : Except Raised (Fdn × F32) := do
  u.life.needReady
  let (t, y) := fdnStep p u.P u.C (u.ch.getD c (FdnS.fresh 0)) x
  pure ({ u with ch := u.ch.set c t }, y)

/-- `FDN.PROC` in a state (rule R325). -/
def State.fdnProc (s : State) (c : Nat) (x : F32) : Except Raised (State × F32) := do
  let (u, y) ← s.fdn.proc s.ctx c x
  pure ({ s with fdn := u }, y)

/-- `FDN.RST fs` (rule R321). -/
def execFdnRst (fs : Word) (s : State) : Host.Outcome State Fault Refusal := conclude s do
  let u ← s.fdn.rst s.ctx fs
  pure ({ s with fdn := u }, [])

/-- `FDN.CFG size, damp, mix` (rule R322). -/
def execFdnCfg (size damp mix : Word) (s : State) : Host.Outcome State Fault Refusal := conclude s do
  pure ({ s with fdn := s.fdn.cfg s.ctx ⟨size, damp, mix⟩ }, [])

/-- `FDN.PROC ch=c x` (rule R325). -/
def execFdnProc (ch : BitVec 4) (x : Word) (s : State) : Host.Outcome State Fault Refusal := conclude s do
  require (channelOk s.params ch) .illegal
  let (t, y) ← s.fdnProc ch.toNat x
  pure (t, [y])

end Sys2Proof.Machine
end

