-- ==== Sys2Proof/Machine/Shaping.lean ====
section
/-! DEFINITION. SAT, the saturator between its two tone filters, and WID, the stereo widener (rules R260 to R275). -/

namespace Sys2Proof.Machine

/-! ### SAT -/

/-- `4000.0`, the corner of both tone filters (rule R262). -/
def satShelfFreq : F32 := 0x457A0000

/-- The tone-filter coefficients, from the rate alone (rules R48, R262). -/
def satTone (p : Ctx) (fs : F32) : SatC where
  pre := bqCoeffs p .highShelf satShelfFreq p.satShelfQ (F32.neg F32.six) fs
  post := bqCoeffs p .highShelf satShelfFreq p.satShelfQ F32.six fs

/-- A channel of SAT as RST leaves it (rule R261). -/
def SatS.fresh : SatS := ⟨.zero, .zero⟩

/-- `SAT.RST` (rule R261): the tone filters are computed whether or not SAT is configured (rule R48). -/
def Sat.rst (p : Ctx) (u : Sat) (fs : F32) : Except Raised Sat := do
  require (rateOk p.toParams fs) .param
  pure { u with
    life := u.life.reset fs, driveScale := F32.one, C := satTone p fs, ch := perChannel p SatS.fresh }

/-- `SAT.CFG` (rule R263): no coefficient depends on the two P registers. -/
def Sat.cfg (u : Sat) (P : SatP) : Sat := { u with P := P, life := u.life.configure }

/-- `SAT.DSCALE` (rule R264). -/
def Sat.dscale (u : Sat) (scale : F32) : Except Raised Sat := do
  u.life.needActive
  pure { u with driveScale := scale }

/-- The soft-clip cubic: clamp to ±1, then `k - k³/3` (rules R260, R265). -/
def satCubic (p : Ctx) (d : F32) : F32 :=
  let k := F32.clamp d (F32.neg F32.one) F32.one
  p.sub k (p.div (p.mul (p.mul k k) k) F32.three)

/-- The waveshaper by type (rule R265). -/
def satShape (p : Ctx) : SatType → F32 → F32
  | .cubic, d => satCubic p d
  | .tanh, d => Num.tanh d

/-- One sample of the saturator: pre filter, drive, waveshaper, post filter (rule R265). -/
def satStep (p : Ctx) (P : SatP) (scale : F32) (C : SatC) (s : SatS) (x : F32) : SatS × F32 :=
  let (pre, v) := bqStep p C.pre s.pre x
  let (post, y) := bqStep p C.post s.post (satShape p P.type (p.mul (p.mul v P.drive) scale))
  (⟨pre, post⟩, y)

/-- `SAT.PROC` on channel `c` (rule R265). -/
def Sat.proc (p : Ctx) (u : Sat) (c : Nat) (x : F32) : Except Raised (Sat × F32) := do
  u.life.needReady
  let (t, y) := satStep p u.P u.driveScale u.C (u.ch.getD c SatS.fresh) x
  pure ({ u with ch := u.ch.set c t }, y)

/-- `SAT.DSCALE` in a state (rule R264). -/
def State.satDscale (s : State) (scale : F32) : Except Raised State := do
  let u ← s.sat.dscale scale
  pure { s with sat := u }

/-- `SAT.PROC` in a state (rule R265). -/
def State.satProc (s : State) (c : Nat) (x : F32) : Except Raised (State × F32) := do
  let (u, y) ← s.sat.proc s.ctx c x
  pure ({ s with sat := u }, y)

/-- `SAT.RST fs` (rule R261). -/
def execSatRst (fs : Word) (s : State) : Host.Outcome State Fault Refusal := conclude s do
  let u ← s.sat.rst s.ctx fs
  pure ({ s with sat := u }, [])

/-- `SAT.CFG mode=type drive` (rule R263). -/
def execSatCfg (type : SatType) (drive : Word) (s : State) : Host.Outcome State Fault Refusal := conclude s do
  pure ({ s with sat := s.sat.cfg ⟨drive, type⟩ }, [])

/-- `SAT.PROC ch=c x` (rule R265). -/
def execSatProc (ch : BitVec 4) (x : Word) (s : State) : Host.Outcome State Fault Refusal := conclude s do
  require (channelOk s.params ch) .illegal
  let (t, y) ← s.satProc ch.toNat x
  pure (t, [y])

/-- `SAT.DSCALE scale` (rule R264). -/
def execSatDscale (scale : Word) (s : State) : Host.Outcome State Fault Refusal := conclude s do
  let t ← s.satDscale scale
  pure (t, [])

/-! ### The one-pole lowpass that WID and XN share (rules R275, R373) -/

/-- `1.0 - NUM.exp(-(((2.0 * PI) * f) / fs))` (rules R275, R373). -/
def lowpassCoef (p : Ctx) (fs f : F32) : F32 :=
  p.sub F32.one (Num.exp (F32.neg (p.div (p.mul (p.mul F32.two F32.pi) f) fs)))

/-- `s <- s + (k * (v - s))` (rules R275, R374). -/
def lowpassStep (p : Ctx) (k s v : F32) : F32 := p.add s (p.mul k (p.sub v s))

/-! ### WID -/

/-- A pair of WID as RST leaves it (rule R271). -/
def WidS.fresh : WidS := ⟨F32.zero, F32.zero⟩

/-- Recomputes the C register while `ACTIVE` and `CONFIGURED` (rules R35, R36, R275). -/
def Wid.derive (p : Ctx) (u : Wid) : Wid :=
  if u.life.ready then { u with k := lowpassCoef p u.life.fsEff u.P.bassFreq } else u

/-- `WID.RST` (rule R271): one pair for every two channels. -/
def Wid.rst (p : Ctx) (u : Wid) (fs : F32) : Except Raised Wid := do
  require (rateOk p.toParams fs) .param
  pure (Wid.derive p { u with life := u.life.reset fs, pairs := List.replicate (p.nch / 2) WidS.fresh })

/-- The P registers written, then rule R36 (`WID.CFG`, rule R272). -/
def Wid.cfg (p : Ctx) (u : Wid) (P : WidP) : Wid := Wid.derive p { u with P := P, life := u.life.configure }

/-- Mid and Side after the mono-bass option, with the stores it moves (rule R273). -/
def widBass (p : Ctx) (monoBass : Bool) (k : F32) (s : WidS) (mid side : F32) : WidS × F32 × F32 :=
  if monoBass then
    let bass := lowpassStep p k s.lpm mid
    let low := lowpassStep p k s.lps side
    (⟨bass, low⟩, p.add bass (p.sub mid bass), p.sub side low)
  else (s, mid, side)

/-- One sample of a pair (rule R273). -/
def widStep (p : Ctx) (P : WidP) (k : F32) (s : WidS) (l r : F32) : WidS × F32 × F32 :=
  let (t, m2, s2) := widBass p P.monoBass k s (p.div (p.add l r) F32.two) (p.div (p.sub l r) F32.two)
  let sw := p.mul s2 P.width
  (t, p.add m2 sw, p.sub m2 sw)

/-- `WID.PROC` on pair `i` (rule R273). -/
def Wid.proc (p : Ctx) (u : Wid) (i : Nat) (l r : F32) : Except Raised (Wid × F32 × F32) := do
  u.life.needReady
  let (t, l', r') := widStep p u.P u.k (u.pairs.getD i WidS.fresh) l r
  pure ({ u with pairs := u.pairs.set i t }, l', r')

/-- `WID.PROC` on pair `i` in a state (rule R273). -/
def State.widProc (s : State) (i : Nat) (l r : F32) : Except Raised (State × F32 × F32) := do
  let (u, l', r') ← s.wid.proc s.ctx i l r
  pure ({ s with wid := u }, l', r')

/-- `WID.RST fs` (rule R271). -/
def execWidRst (fs : Word) (s : State) : Host.Outcome State Fault Refusal := conclude s do
  let u ← s.wid.rst s.ctx fs
  pure ({ s with wid := u }, [])

/-- `WID.CFG mode=monoBass width, bassFreq` (rule R272). -/
def execWidCfg (monoBass : Bool) (width bassFreq : Word) (s : State) :
    Host.Outcome State Fault Refusal := conclude s do
  pure ({ s with wid := s.wid.cfg s.ctx ⟨width, bassFreq, monoBass⟩ }, [])

/-- `WID.PROC ch=2p L, R` (rule R273). -/
def execWidProc (ch : BitVec 4) (l r : Word) (s : State) : Host.Outcome State Fault Refusal := conclude s do
  require (pairOk s.params ch) .illegal
  let (t, l', r') ← s.widProc (ch.toNat / 2) l r
  pure (t, [l', r'])

end Sys2Proof.Machine
end

