-- ==== Sys2Proof/Machine/Supervisor.lean ====
section
/-! DEFINITION. XN, the CrossNormalizer: the statistics of a block and the five outputs drawn from them (rules R370 to R376). -/

namespace Sys2Proof.Machine

/-! ### The constants that the document gives (rule R372) -/

/-- `XN_AL_CLAMP_DB`, 12.0 -/
def xnAlClampDb : F32 := F32.twelve
/-- `XN_MUD_RATIO`, 1.2 -/
def xnMudRatio : F32 := 0x3F99999A
/-- `XN_MUD_MAX_DB`, 9.0 -/
def xnMudMaxDb : F32 := 0x41100000
/-- `XN_SCR_RATIO`, 0.8 -/
def xnScrRatio : F32 := 0x3F4CCCCD

/-! ### State and coefficients -/

/-- The accumulators of an empty block (rules R371, R375). -/
def XnAcc.empty : XnAcc := ⟨0, F32.zero, F32.zero, F32.zero, F32.zero, F32.zero⟩

/-- The neutral outputs (rule R371). -/
def XnOut.neutral : XnOut := ⟨F32.one, F32.zero, F32.zero, F32.zero, F32.one⟩

/-- `KLP[0..5]` (rule R373). -/
def xnCoeffs (p : Ctx) (fs : F32) (P : XnP) : Six where
  v0 := lowpassCoef p fs P.fMudLo
  v1 := lowpassCoef p fs P.fMudHi
  v2 := lowpassCoef p fs P.fCoreLo
  v3 := lowpassCoef p fs P.fCoreHi
  v4 := lowpassCoef p fs P.fScrLo
  v5 := lowpassCoef p fs P.fScrHi

/-- Recomputes the C registers while `ACTIVE` and `CONFIGURED` (rules R371, R373). -/
def Xn.derive (p : Ctx) (u : Xn) : Xn :=
  if u.life.ready then { u with klp := xnCoeffs p u.life.fsEff u.P } else u

/-- `XN.RST` (rule R371). -/
def Xn.rst (p : Ctx) (u : Xn) (fs : F32) : Except Raised Xn := do
  require (rateOk p.toParams fs) .param
  pure (Xn.derive p { u with
    life := u.life.reset fs, lps := perChannel p Six.zero, acc := XnAcc.empty, out := XnOut.neutral })

/-- The P registers written, then rule R36 (`XN.CFG`, rule R373). -/
def Xn.cfg (p : Ctx) (u : Xn) (P : XnP) : Xn := Xn.derive p { u with P := P, life := u.life.configure }

/-! ### XN.ACC -/

/-- The six one-pole stores after the sample `x` (rule R374). -/
def xnStores (p : Ctx) (k s : Six) (x : F32) : Six where
  v0 := lowpassStep p k.v0 s.v0 x
  v1 := lowpassStep p k.v1 s.v1 x
  v2 := lowpassStep p k.v2 s.v2 x
  v3 := lowpassStep p k.v3 s.v3 x
  v4 := lowpassStep p k.v4 s.v4 x
  v5 := lowpassStep p k.v5 s.v5 x

/-- The saturating count (rule R374). -/
def xnCount (n : Word) : Word := if n.toNat < 0xFFFFFFFF then n + 1 else n

/-- `s + v²` -/
def addSquare (p : Ctx) (s v : F32) : F32 := p.add s (p.mul v v)

/-- The accumulators after the sample `x`, with the new stores `l` (rule R374). -/
def xnGather (p : Ctx) (a : XnAcc) (l : Six) (x : F32) : XnAcc where
  n := xnCount a.n
  sumsq := addSquare p a.sumsq x
  peak := F32.fmax (F32.abs x) a.peak
  sumsqMud := addSquare p a.sumsqMud (p.sub l.v1 l.v0)
  sumsqCore := addSquare p a.sumsqCore (p.sub l.v3 l.v2)
  sumsqScr := addSquare p a.sumsqScr (p.sub l.v5 l.v4)

/-- `XN.ACC` on channel `c` (rule R374). -/
def Xn.gather (p : Ctx) (u : Xn) (c : Nat) (x : F32) : Except Raised Xn := do
  u.life.needReady
  let l := xnStores p u.klp (u.lps.getD c Six.zero) x
  pure { u with lps := u.lps.set c l, acc := xnGather p u.acc l x }

/-! ### XN.ANALYZE -/

/-- Instant fall to the target, slow release toward it: the law of the pre-gain, of the mud cut and of the drive
scale (rule R375). -/
def fallOrRelease (p : Ctx) (rel v tgt : F32) : F32 :=
  if F32.lt tgt v then tgt else p.add (p.mul rel (p.sub v tgt)) tgt

/-- The RMS of a sum of squares over `n` samples (rule R375). -/
def xnRms (p : Ctx) (sum n : F32) : F32 := Num.sqrt (p.div sum n)

/-- `pt`, the pre-gain target (rule R375). -/
def xnPreTarget (p : Ctx) (peak : F32) : F32 := if F32.lt p.xnClip peak then p.div p.xnClip peak else F32.one

/-- The auto-level gain; it holds on a silent block (rule R375). -/
def xnAlGain (p : Ctx) (targetRmsDb rms held : F32) : F32 :=
  if F32.le p.xnSilence rms then
    F32.clamp (p.sub targetRmsDb (p.lin2db rms)) (F32.neg xnAlClampDb) xnAlClampDb
  else held

/-- `mt`, the mud-cut target (rule R375). -/
def xnMudTarget (p : Ctx) (rmud rcore : F32) : F32 :=
  let ex := p.sub (p.div rmud rcore) xnMudRatio
  if F32.le p.xnSilence rcore && F32.lt F32.zero ex then
    F32.clamp (F32.neg (p.mul p.xnMudSlopeDb ex)) (F32.neg xnMudMaxDb) F32.zero
  else F32.zero

/-- `st`, the drive-scale target (rule R375). -/
def xnScrTarget (p : Ctx) (rscr rcore : F32) : F32 :=
  let sx := p.sub (p.div rscr rcore) xnScrRatio
  if F32.le p.xnSilence rcore && F32.lt F32.zero sx then
    F32.clamp (p.sub F32.one (p.mul p.xnScrSlope sx)) p.xnScrMin F32.one
  else F32.one

/-- The five outputs after a block that is not empty (rule R375). -/
def xnOutputs (p : Ctx) (targetRmsDb : F32) (a : XnAcc) (o : XnOut) : XnOut :=
  let n := F32.ofNat a.n.toNat
  let rcore := xnRms p a.sumsqCore n
  let al := xnAlGain p targetRmsDb (xnRms p a.sumsq n) o.alGainDb
  { preGain := fallOrRelease p p.xnPreRel o.preGain (xnPreTarget p a.peak)
    alGainDb := al
    compThOffDb := al
    eqMudCutDb := fallOrRelease p p.xnMudRel o.eqMudCutDb (xnMudTarget p (xnRms p a.sumsqMud n) rcore)
    satDriveScale := fallOrRelease p p.xnScrRec o.satDriveScale (xnScrTarget p (xnRms p a.sumsqScr n) rcore) }

/-- The result words of `XN.ANALYZE`, in order (rule R375). -/
def XnOut.words (o : XnOut) : List Word :=
  [o.preGain, o.alGainDb, o.compThOffDb, o.eqMudCutDb, o.satDriveScale]

/-- `XN.ANALYZE` (rule R375): an empty block changes nothing. -/
def Xn.analyze (p : Ctx) (u : Xn) : Except Raised Xn := do
  u.life.needReady
  pure (if u.acc.n = 0 then u
    else { u with acc := XnAcc.empty, out := xnOutputs p u.P.targetRmsDb u.acc u.out })

/-! ### The commands -/

/-- `XN.ACC` in a state (rule R374). -/
def State.xnAcc (s : State) (c : Nat) (x : F32) : Except Raised State := do
  let u ← s.xn.gather s.ctx c x
  pure { s with xn := u }

/-- `XN.ANALYZE` in a state (rule R375). -/
def State.xnAnalyze (s : State) : Except Raised State := do
  let u ← s.xn.analyze s.ctx
  pure { s with xn := u }

/-- `XN.RST fs` (rule R371). -/
def execXnRst (fs : Word) (s : State) : Host.Outcome State Fault Refusal := conclude s do
  let u ← s.xn.rst s.ctx fs
  pure ({ s with xn := u }, [])

/-- `XN.CFG` (rule R373). -/
def execXnCfg (targetRmsDb fMudLo fMudHi fCoreLo fCoreHi fScrLo fScrHi : Word) (s : State) :
    Host.Outcome State Fault Refusal := conclude s do
  pure ({ s with xn := s.xn.cfg s.ctx ⟨targetRmsDb, fMudLo, fMudHi, fCoreLo, fCoreHi, fScrLo, fScrHi⟩ }, [])

/-- `XN.ACC ch=c x` (rule R374). -/
def execXnAcc (ch : BitVec 4) (x : Word) (s : State) : Host.Outcome State Fault Refusal := conclude s do
  require (channelOk s.params ch) .illegal
  let t ← s.xnAcc ch.toNat x
  pure (t, [])

/-- `XN.ANALYZE` (rule R375). -/
def execXnAnalyze (s : State) : Host.Outcome State Fault Refusal := conclude s do
  let t ← s.xnAnalyze
  pure (t, t.xn.out.words)

end Sys2Proof.Machine
end

