-- ==== Sys2Proof/Machine/Pipeline.lean ====
section
/-! DEFINITION. PIPE: reset, configuration, the frame through the fixed stage order, the block commands and DEINIT (rules R385 to R396). A command that PIPE performs on another unit and that raises ends the whole command with that status and no effect (log entry 14). -/

namespace Sys2Proof.Machine

/-! ### PIPE.RST and PIPE.CFG -/

/-- `PIPE.ACTIVE and IN_BLOCK == 1`: PIPE is inside a block (rules R386, R396). -/
def Pipe.midBlock (u : Pipe) : Bool := u.life.active && u.inBlock

/-- The latched configuration as `PIPE.RST` leaves it (rules R66, R386). -/
def PipeP.unlatched : PipeP := ⟨0, 3, 0, 0, noMudBand⟩

/-- PIPE's own registers as `PIPE.RST` leaves them (rule R386). -/
def Pipe.restart (u : Pipe) (os : Bool) (fs : F32) : Pipe :=
  { u with
    life := u.life.reset fs, L := PipeP.unlatched, fs := fs, osEn := os, inBlock := false, latency := 0 }

/-- The rate inside the oversampled bracket (rule R386). -/
def bracketRate (p : Ctx) (os : Bool) (fs : F32) : F32 := if os then p.mul F32.four fs else fs

/-- `PIPE.RST` (rule R386): every unit is reset, the bracket units at the rate inside the bracket. -/
def State.pipeRst (s : State) (os : Bool) (fs : F32) : Except Raised State := do
  require (!s.pipe.midBlock) .sequence
  require (F32.lt F32.zero fs && F32.le (bracketRate s.ctx os fs) s.params.fsMax) .param
  let gate ← s.gate.rst s.ctx (bracketRate s.ctx os fs)
  let agc ← s.agc.rst s.ctx (bracketRate s.ctx os fs)
  let pitch ← s.pitch.rst s.ctx (bracketRate s.ctx os fs)
  let deess ← s.deess.rst s.ctx (bracketRate s.ctx os fs)
  let comp ← s.comp.rst s.ctx (bracketRate s.ctx os fs)
  let fet ← s.fet.rst s.ctx (bracketRate s.ctx os fs)
  let sat ← s.sat.rst s.ctx (bracketRate s.ctx os fs)
  let env ← s.env.rst s.ctx fs
  let dly ← s.dly.rst s.ctx fs
  let rvs ← s.rvs.rst s.ctx fs
  let fdn ← s.fdn.rst s.ctx fs
  let wid ← s.wid.rst s.ctx fs
  let lim ← s.lim.rst s.ctx fs
  let xn ← s.xn.rst s.ctx fs
  pure { s with
    env := env
    bq := s.bq.map (Bq.reset s.ctx (bracketRate s.ctx os fs))
    svf := s.svf.map (Svf.reset s.ctx (bracketRate s.ctx os fs))
    gate := gate, agc := agc, deess := deess, comp := comp, fet := fet, sat := sat, pitch := pitch
    dly := dly, rvs := rvs, fdn := fdn, wid := wid
    os := s.os.rst s.ctx
    lim := lim, xn := xn
    pipe := s.pipe.restart os fs }

/-- PIPE after its P registers are written (rules R36, R387). -/
def Pipe.cfg (u : Pipe) (P : PipeP) : Pipe := { u with P := P, life := u.life.configure }

/-- `PIPE.CFG` (rule R387): it may come at any time, also inside a block. -/
def State.pipeCfg (s : State) (P : PipeP) : Except Raised State := do
  require (pipeCfgOk s.params P) .param
  pure { s with pipe := s.pipe.cfg P }

/-! ### PIPE.FRAME -/

/-- A stage, skipped entirely where its latched bit is clear: the same word goes on (rule R390). -/
def stage (on : Bool) (f : State → Nat → F32 → Except Raised (State × F32)) (s : State) (c : Nat) (x : F32) :
    Except Raised (State × F32) :=
  if on then f s c x else .ok (s, x)

/-- Band `b` of the equaliser (rule R392). -/
def State.eqBand (b : Nat) (s : State) (c : Nat) (x : F32) : Except Raised (State × F32) :=
  stage (s.pipe.L.bandEnabled b)
    (fun s c x => if s.pipe.L.bandIsSvf b then s.svfProc c b x else s.bqProc c b x) s c x

/-- The bands of the list, in order (rule R392). -/
def eqBands : List Nat → State → Nat → F32 → Except Raised (State × F32)
  | [], s, _, x => .ok (s, x)
  | b :: bs, s, c, x => do
    let (t, y) ← State.eqBand b s c x
    eqBands bs t c y

/-- The multi-band EQ: bands `0..NEQ-1` in order (rule R392). -/
def State.eqProc (s : State) (c : Nat) (x : F32) : Except Raised (State × F32) :=
  eqBands (List.range s.params.neq) s c x

/-- The compressor that `L_SEL[0]` selects (rules R388, R389). -/
def State.compressorProc (s : State) (c : Nat) (x : F32) : Except Raised (State × F32) :=
  if s.pipe.L.selectsFet then s.fetProc c x else s.compProc c x

/-- The reverb that `L_SEL[1]` selects (rules R388, R389). -/
def State.reverbProc (s : State) (c : Nat) (x : F32) : Except Raised (State × F32) :=
  if s.pipe.L.selectsFdn then s.fdnProc c x else s.rvsProc c x

/-- `bracket(c, s)`: stages 1 to 7 for one sample of channel `c` (rule R389). -/
def State.bracket (s : State) (c : Nat) (x : F32) : Except Raised (State × F32) := do
  let (s, x) ← stage (s.pipe.L.enabled .gate) State.gateProc s c x
  let (s, x) ← stage (s.pipe.L.enabled .agc) State.agcProc s c x
  let (s, x) ← stage (s.pipe.L.enabled .pitch) State.pitchProc s c x
  let (s, x) ← stage (s.pipe.L.enabled .deess) State.deessProc s c x
  let (s, x) ← stage (s.pipe.L.enabled .eq) State.eqProc s c x
  let (s, x) ← stage (s.pipe.L.enabled .comp) State.compressorProc s c x
  stage (s.pipe.L.enabled .sat) State.satProc s c x

/-- The bracket run at four times the rate, between the upsampler and the downsampler (rule R389). -/
def State.oversampled (s : State) (c : Nat) (x : F32) : Except Raised (State × F32) := do
  let (s, u0, u1, u2, u3) ← s.osUp c x
  let (s, u0) ← s.bracket c u0
  let (s, u1) ← s.bracket c u1
  let (s, u2) ← s.bracket c u2
  let (s, u3) ← s.bracket c u3
  s.osDown c u0 u1 u2 u3

/-- The per-channel part of a frame: bracket, delay, reverb (rule R389). -/
def State.channelProc (s : State) (c : Nat) (x : F32) : Except Raised (State × F32) := do
  let (s, x) ← if s.pipe.osEn then s.oversampled c x else s.bracket c x
  let (s, x) ← stage (s.pipe.L.enabled .dly) State.dlyProc s c x
  stage (s.pipe.L.enabled .reverb) State.reverbProc s c x

/-- The supervisor's tap and the pre-gain (rules R388, R389). -/
def State.xnTap (s : State) (c : Nat) (x : F32) : Except Raised (State × F32) := do
  let t ← s.xnAcc c x
  pure (t, t.ctx.mul x t.xn.out.preGain)

/-- Runs a step for channels `c`, `c + 1`, … in ascending order (rule R389). -/
def forChannels (f : State → Nat → F32 → Except Raised (State × F32)) :
    State → Nat → List F32 → Except Raised (State × List F32)
  | s, _, [] => .ok (s, [])
  | s, c, x :: xs => do
    let (s, y) ← f s c x
    let (s, ys) ← forChannels f s (c + 1) xs
    pure (s, y :: ys)

/-- The widener on pairs `i`, `i + 1`, …; a last unpaired channel passes through (rules R388, R389). -/
def widPairs : State → Nat → List F32 → Except Raised (State × List F32)
  | s, i, l :: r :: xs => do
    let (s, l', r') ← s.widProc i l r
    let (s, ys) ← widPairs s (i + 1) xs
    pure (s, l' :: r' :: ys)
  | s, _, [] => .ok (s, [])
  | s, _, [x] => .ok (s, [x])

/-- A step over all channels, skipped entirely where its latched bit is clear (rule R390). -/
def stageAll (on : Bool) (f : State → List F32 → Except Raised (State × List F32)) (s : State) (xs : List F32) :
    Except Raised (State × List F32) :=
  if on then f s xs else .ok (s, xs)

/-- `PIPE.FRAME` (rule R389). -/
def State.pipeFrame (s : State) (xs : List F32) : Except Raised (State × List F32) := do
  s.pipe.life.needActive
  require s.pipe.inBlock .sequence
  let (s, xs) ← stageAll (s.pipe.L.enabled .xn) (fun s xs => forChannels State.xnTap s 0 xs) s xs
  let (s, xs) ← forChannels State.channelProc s 0 xs
  let (s, xs) ← stageAll (s.pipe.L.enabled .wid) (fun s xs => widPairs s 0 xs) s xs
  stageAll (s.pipe.L.enabled .lim) (fun s xs => forChannels State.limProc s 0 xs) s xs

/-! ### The block commands -/

/-- `BQ.GOFF` and `SVF.GOFF` on the mud band, where there is one (rules R391, R393). -/
def State.goffBand (s : State) (b : Word) (offsetDb : F32) : Except Raised State :=
  if b = noMudBand then .ok s
  else do
    let t ← s.bqGoff b.toNat offsetDb
    t.svfGoff b.toNat offsetDb

/-- Hands values to the four consumers of the supervisor (rule R391). -/
def State.driveConsumers (s : State) (mode : Bool) (alGainDb thOffDb scale cutDb : F32) : Except Raised State := do
  let s ← s.agcExt mode alGainDb
  let s ← s.fetThoff thOffDb
  let s ← s.satDscale scale
  s.goffBand s.pipe.L.eqMudBand cutDb

/-- `xn_distribute()` (rule R391). -/
def State.xnDistribute (s : State) : Except Raised State :=
  s.driveConsumers true s.xn.out.alGainDb s.xn.out.compThOffDb s.xn.out.satDriveScale s.xn.out.eqMudCutDb

/-- `xn_neutral()` (rule R391). -/
def State.xnNeutral (s : State) : Except Raised State :=
  s.driveConsumers false F32.zero F32.zero F32.one F32.zero

/-- Band `b` of an enabled EQ is configured, if it is enabled itself (rule R393). -/
def State.bandReady (s : State) (c : PipeP) (b : Nat) : Bool :=
  !c.bandEnabled b ||
    (if c.bandIsSvf b then (s.svfAt b).life.configured else (s.bqAt b).life.configured)

/-- Every unit that the configuration `c` selects is configured (rule R393). -/
def State.selectedReady (s : State) (c : PipeP) : Bool :=
  (!c.enabled .gate || s.gate.life.configured) &&
  (!c.enabled .agc || s.agc.life.configured) &&
  (!c.enabled .pitch || s.pitch.life.configured) &&
  (!c.enabled .deess || s.deess.life.configured) &&
  (!c.enabled .eq || (List.range s.params.neq).all (s.bandReady c)) &&
  (!c.enabled .comp || (if c.selectsFet then s.fet.life.configured else s.comp.life.configured)) &&
  (!c.enabled .sat || s.sat.life.configured) &&
  (!c.enabled .dly || s.dly.life.configured) &&
  (!c.enabled .reverb || (if c.selectsFdn then s.fdn.life.configured else s.rvs.life.configured)) &&
  (!c.enabled .wid || s.wid.life.configured) &&
  (!c.enabled .lim || s.lim.life.configured) &&
  (!c.enabled .xn || s.xn.life.configured)

/-- The reported latency (rules R393, R470). -/
def State.reportedLatency (s : State) : Word :=
  (if s.pipe.osEn then 16 else 0) + (if s.pipe.L.enabled .lim then s.lim.C.la else 0)

/-- The Pipeline Configuration latched (rule R393). -/
def State.latch (s : State) : State := { s with pipe := { s.pipe with L := s.pipe.P } }

/-- The mud band that the last block had, when it changes: its gain offsets return to 0 (rule R393). -/
def State.releaseBand (s : State) (old : Word) : Except Raised State :=
  if old = s.pipe.L.eqMudBand then .ok s else s.goffBand old F32.zero

/-- What `PIPE.BEGIN` does to the consumers of the supervisor: driven while its bit is set, returned to neutral once
when it falls (rule R393). -/
def State.beginConsumers (s : State) (was : Bool) : Except Raised State :=
  if s.pipe.L.enabled .xn then s.xnDistribute
  else if was then s.xnNeutral
  else .ok s

/-- `PIPE.BEGIN` (rule R393). -/
def State.pipeBegin (s : State) : Except Raised State := do
  s.pipe.life.needReady
  require (!s.pipe.inBlock) .sequence
  require (s.selectedReady s.pipe.P) .unconfigured
  let t ← s.latch.releaseBand s.pipe.L.eqMudBand
  let t ← t.beginConsumers (s.pipe.L.enabled .xn)
  pure { t with pipe := { t.pipe with latency := t.reportedLatency, inBlock := true } }

/-- `PIPE.END` (rule R394). -/
def State.pipeEnd (s : State) : Except Raised State := do
  s.pipe.life.needActive
  require s.pipe.inBlock .sequence
  let t ← if s.pipe.L.enabled .xn then (do
      let t ← s.xnAnalyze
      t.xnDistribute)
    else .ok s
  pure { t with pipe := { t.pipe with inBlock := false } }

/-- `PIPE.DEINIT` (rule R396): `ACTIVE` of every unit is cleared, nothing else (log entry 18). -/
def State.deinit (s : State) : State :=
  { s with
    env := { s.env with life := s.env.life.deinit }
    bq := s.bq.map (fun u => { u with life := u.life.deinit })
    svf := s.svf.map (fun u => { u with life := u.life.deinit })
    gate := { s.gate with life := s.gate.life.deinit }
    agc := { s.agc with life := s.agc.life.deinit }
    deess := { s.deess with life := s.deess.life.deinit }
    comp := { s.comp with life := s.comp.life.deinit }
    fet := { s.fet with life := s.fet.life.deinit }
    sat := { s.sat with life := s.sat.life.deinit }
    pitch := { s.pitch with life := s.pitch.life.deinit }
    dly := { s.dly with life := s.dly.life.deinit }
    rvs := { s.rvs with life := s.rvs.life.deinit }
    fdn := { s.fdn with life := s.fdn.life.deinit }
    wid := { s.wid with life := s.wid.life.deinit }
    os := { s.os with life := s.os.life.deinit }
    lim := { s.lim with life := s.lim.life.deinit }
    xn := { s.xn with life := s.xn.life.deinit }
    pipe := { s.pipe with life := s.pipe.life.deinit } }

/-! ### The commands -/

/-- `PIPE.RST mode=os fs` (rule R386). -/
def execPipeRst (os : Bool) (fs : Word) (s : State) : Host.Outcome State Fault Refusal := conclude s do
  let t ← s.pipeRst os fs
  pure (t, [])

/-- `PIPE.CFG en, sel, eqKind, eqBandEn, eqMudBand` (rule R387). -/
def execPipeCfg (en sel eqKind eqBandEn eqMudBand : Word) (s : State) :
    Host.Outcome State Fault Refusal := conclude s do
  let t ← s.pipeCfg ⟨en, sel, eqKind, eqBandEn, eqMudBand⟩
  pure (t, [])

/-- `PIPE.FRAME x[0], .., x[NCH-1]` (rule R389). -/
def execPipeFrame (xs : List Word) (s : State) : Host.Outcome State Fault Refusal := conclude s do
  require (decide (xs.length = s.params.nch)) .illegal
  s.pipeFrame xs

/-- `PIPE.BEGIN` (rule R393). -/
def execPipeBegin (s : State) : Host.Outcome State Fault Refusal := conclude s do
  let t ← s.pipeBegin
  pure (t, [])

/-- `PIPE.END` (rule R394). -/
def execPipeEnd (s : State) : Host.Outcome State Fault Refusal := conclude s do
  let t ← s.pipeEnd
  pure (t, [])

/-- `PIPE.DEINIT` (rule R396). -/
def execPipeDeinit (s : State) : Host.Outcome State Fault Refusal := conclude s do
  require (!s.pipe.midBlock) .sequence
  pure (s.deinit, [])

end Sys2Proof.Machine
end

