-- ==== Sys2Proof/Machine/Registers.lean ====
section
/-! DEFINITION. RD and WR: what each register of rules R37 to R54 and R66 holds and which words it accepts, unit by unit in register order, and the two commands (rules R400, R401). -/

namespace Sys2Proof.Machine

/-! ### One register -/

/-- A register of a unit with record `U`: its word in copy `c`, and the unit with that copy written, where the
register accepts the word (rule R71). -/
structure View (U : Type) where
  get : U → Nat → Word
  set : U → Nat → Word → Option U

/-- A register of one copy that accepts every word. -/
def View.raw {U : Type} (get : U → Word) (set : U → Word → U) : View U :=
  ⟨fun u _ => get u, fun u _ w => some (set u w)⟩

/-- A register of one copy that holds a listed value (rule R71). -/
def View.coded {U α : Type} (get : U → Word) (of : Word → Option α) (set : U → α → U) : View U :=
  ⟨fun u _ => get u, fun u _ w => (of w).map (set u)⟩

/-- A register that WR may not write (rule R71). -/
def View.fixed {U : Type} (get : U → Word) : View U := ⟨fun u _ => get u, fun _ _ _ => none⟩

/-- A per-channel register: `list` and `put` reach the copies, `get` and `set` the register in one of them. -/
def View.copy {U S : Type} (list : U → List S) (put : U → List S → U) (fresh : S) (get : S → Word)
    (set : S → Word → Option S) : View U :=
  ⟨fun u c => get ((list u).getD c fresh),
   fun u c w => (set ((list u).getD c fresh) w).map (fun t => put u ((list u).set c t))⟩

/-! ### The register files, in register order -/

/-- ENV (rule R37). -/
def envViews : List (View Env) :=
  [.raw (·.P.tAtt) (fun u w => { u with P.tAtt := w }),
   .raw (·.P.tRel) (fun u w => { u with P.tRel := w }),
   .raw (·.C.a) (fun u w => { u with C.a := w }),
   .raw (·.C.r) (fun u w => { u with C.r := w }),
   .copy (·.envelope) (fun u l => { u with envelope := l }) 0 id (fun _ w => some w)]

/-- A register in the taps of a channel of BQ. -/
def bqTap (get : BqTaps → Word) (set : BqTaps → Word → BqTaps) : View Bq :=
  .copy (·.taps) (fun u l => { u with taps := l }) BqTaps.zero get (fun t w => some (set t w))

/-- BQ, one instance (rule R38). -/
def bqViews : List (View Bq) :=
  [.coded (fun u => bqTypeWord u.P.type) bqTypeOf (fun u t => { u with P.type := t }),
   .raw (·.P.freq) (fun u w => { u with P.freq := w }),
   .raw (·.P.q) (fun u w => { u with P.q := w }),
   .raw (·.P.gainDb) (fun u w => { u with P.gainDb := w }),
   .raw (·.C.b0) (fun u w => { u with C.b0 := w }),
   .raw (·.C.b1) (fun u w => { u with C.b1 := w }),
   .raw (·.C.b2) (fun u w => { u with C.b2 := w }),
   .raw (·.C.a1) (fun u w => { u with C.a1 := w }),
   .raw (·.C.a2) (fun u w => { u with C.a2 := w }),
   bqTap (·.x1) (fun t w => { t with x1 := w }),
   bqTap (·.x2) (fun t w => { t with x2 := w }),
   bqTap (·.y1) (fun t w => { t with y1 := w }),
   bqTap (·.y2) (fun t w => { t with y2 := w }),
   .raw (·.gainOffDb) (fun u w => { u with gainOffDb := w })]

/-- A register in a channel of SVF. -/
def svfCopy (get : SvfS → Word) (set : SvfS → Word → SvfS) : View Svf :=
  .copy (·.ch) (fun u l => { u with ch := l }) SvfS.zero get (fun t w => some (set t w))

/-- SVF, one instance (rule R39). -/
def svfViews : List (View Svf) :=
  [.coded (fun u => svfTypeWord u.P.type) svfTypeOf (fun u t => { u with P.type := t }),
   .raw (·.P.freq) (fun u w => { u with P.freq := w }),
   .raw (·.P.q) (fun u w => { u with P.q := w }),
   .raw (·.P.gainDb) (fun u w => { u with P.gainDb := w }),
   .raw (·.C.g) (fun u w => { u with C.g := w }),
   .raw (·.C.r) (fun u w => { u with C.r := w }),
   .raw (·.C.d) (fun u w => { u with C.d := w }),
   .raw (·.C.ak) (fun u w => { u with C.ak := w }),
   svfCopy (·.s1) (fun t w => { t with s1 := w }),
   svfCopy (·.s2) (fun t w => { t with s2 := w }),
   .raw (·.gainOffDb) (fun u w => { u with gainOffDb := w })]

/-- A register in a channel of GATE. -/
def gateCopy (get : GateS → Word) (set : GateS → Word → Option GateS) : View Gate :=
  .copy (·.ch) (fun u l => { u with ch := l }) GateS.fresh get set

/-- GATE (rule R40). -/
def gateViews : List (View Gate) :=
  [.raw (·.P.threshDb) (fun u w => { u with P.threshDb := w }),
   .raw (·.P.rangeDb) (fun u w => { u with P.rangeDb := w }),
   .raw (·.P.attackMs) (fun u w => { u with P.attackMs := w }),
   .raw (·.P.holdMs) (fun u w => { u with P.holdMs := w }),
   .raw (·.P.releaseMs) (fun u w => { u with P.releaseMs := w }),
   .raw (·.P.hystDb) (fun u w => { u with P.hystDb := w }),
   .raw (·.C.openTh) (fun u w => { u with C.openTh := w }),
   .raw (·.C.closeTh) (fun u w => { u with C.closeTh := w }),
   .raw (·.C.rangeF) (fun u w => { u with C.rangeF := w }),
   .raw (·.C.a) (fun u w => { u with C.a := w }),
   .raw (·.C.r) (fun u w => { u with C.r := w }),
   .raw (·.C.holdSamples) (fun u w => { u with C.holdSamples := w }),
   gateCopy (·.envelope) (fun t w => some { t with envelope := w }),
   gateCopy (fun t => gateStateWord t.state) (fun t w => (gateStateOf w).map (fun st => { t with state := st })),
   gateCopy (·.holdCnt) (fun t w => some { t with holdCnt := w }),
   gateCopy (·.gain) (fun t w => some { t with gain := w })]

/-- A register in a channel of AGC. -/
def agcCopy (get : AgcS → Word) (set : AgcS → Word → AgcS) : View Agc :=
  .copy (·.ch) (fun u l => { u with ch := l }) AgcS.fresh get (fun t w => some (set t w))

/-- AGC (rule R41). -/
def agcViews : List (View Agc) :=
  [.raw (·.P.targetDb) (fun u w => { u with P.targetDb := w }),
   .raw (·.P.rangeDb) (fun u w => { u with P.rangeDb := w }),
   .raw (·.P.attackMs) (fun u w => { u with P.attackMs := w }),
   .raw (·.P.releaseMs) (fun u w => { u with P.releaseMs := w }),
   .coded (fun u => flagWord u.K.extMode) flagOf (fun u b => { u with K.extMode := b }),
   .raw (·.K.extGainDb) (fun u w => { u with K.extGainDb := w }),
   .raw (·.C.a) (fun u w => { u with C.a := w }),
   .raw (·.C.r) (fun u w => { u with C.r := w }),
   .raw (·.K.extTgt) (fun u w => { u with K.extTgt := w }),
   agcCopy (·.envelope) (fun t w => { t with envelope := w }),
   agcCopy (·.sgain) (fun t w => { t with sgain := w })]

/-- A register in a channel of DEESS. -/
def deessCopy (get : DeessS → Word) (set : DeessS → Word → DeessS) : View Deess :=
  .copy (·.ch) (fun u l => { u with ch := l }) DeessS.fresh get (fun t w => some (set t w))

/-- DEESS (rule R42). -/
def deessViews : List (View Deess) :=
  [.raw (·.P.freq) (fun u w => { u with P.freq := w }),
   .raw (·.P.threshDb) (fun u w => { u with P.threshDb := w }),
   .raw (·.P.ratio) (fun u w => { u with P.ratio := w }),
   .raw (·.P.attackMs) (fun u w => { u with P.attackMs := w }),
   .raw (·.P.releaseMs) (fun u w => { u with P.releaseMs := w }),
   .raw (·.P.maxRedDb) (fun u w => { u with P.maxRedDb := w }),
   .raw (·.C.thLin) (fun u w => { u with C.thLin := w }),
   .raw (·.C.expo) (fun u w => { u with C.expo := w }),
   .raw (·.C.floorG) (fun u w => { u with C.floorG := w }),
   .raw (·.C.a) (fun u w => { u with C.a := w }),
   .raw (·.C.r) (fun u w => { u with C.r := w }),
   .raw (·.C.xg) (fun u w => { u with C.xg := w }),
   .raw (·.C.xr) (fun u w => { u with C.xr := w }),
   .raw (·.C.xd) (fun u w => { u with C.xd := w }),
   deessCopy (·.xs1) (fun t w => { t with xs1 := w }),
   deessCopy (·.xs2) (fun t w => { t with xs2 := w }),
   deessCopy (·.envelope) (fun t w => { t with envelope := w })]

/-- COMP (rule R43). -/
def compViews : List (View Comp) :=
  [.raw (·.P.threshDb) (fun u w => { u with P.threshDb := w }),
   .raw (·.P.ratio) (fun u w => { u with P.ratio := w }),
   .raw (·.P.kneeDb) (fun u w => { u with P.kneeDb := w }),
   .raw (·.P.attackMs) (fun u w => { u with P.attackMs := w }),
   .raw (·.P.releaseMs) (fun u w => { u with P.releaseMs := w }),
   .raw (·.P.makeupDb) (fun u w => { u with P.makeupDb := w }),
   .raw (·.C.slope) (fun u w => { u with C.slope := w }),
   .raw (·.C.a) (fun u w => { u with C.a := w }),
   .raw (·.C.r) (fun u w => { u with C.r := w }),
   .raw (·.C.makeupLin) (fun u w => { u with C.makeupLin := w }),
   .copy (·.gain) (fun u l => { u with gain := l }) F32.one id (fun _ w => some w)]

/-- FET (rule R44). -/
def fetViews : List (View Fet) :=
  [.raw (·.P.inputDb) (fun u w => { u with P.inputDb := w }),
   .raw (·.P.ratio) (fun u w => { u with P.ratio := w }),
   .raw (·.P.attackMs) (fun u w => { u with P.attackMs := w }),
   .raw (·.P.releaseMs) (fun u w => { u with P.releaseMs := w }),
   .coded (fun u => flagWord u.P.autoMakeup) flagOf (fun u b => { u with P.autoMakeup := b }),
   .raw (·.K.threshOffsetDb) (fun u w => { u with K.threshOffsetDb := w }),
   .raw (·.C.drive) (fun u w => { u with C.drive := w }),
   .raw (·.K.thLin) (fun u w => { u with K.thLin := w }),
   .raw (·.C.expo) (fun u w => { u with C.expo := w }),
   .raw (·.C.makeup) (fun u w => { u with C.makeup := w }),
   .raw (·.C.a) (fun u w => { u with C.a := w }),
   .raw (·.C.r) (fun u w => { u with C.r := w }),
   .copy (·.envelope) (fun u l => { u with envelope := l }) F32.zero id (fun _ w => some w)]

/-- A register in a channel of SAT. -/
def satCopy (get : SatS → Word) (set : SatS → Word → SatS) : View Sat :=
  .copy (·.ch) (fun u l => { u with ch := l }) SatS.fresh get (fun t w => some (set t w))

/-- SAT (rules R45, R48). -/
def satViews : List (View Sat) :=
  [.raw (·.P.drive) (fun u w => { u with P.drive := w }),
   .coded (fun u => satTypeWord u.P.type) satTypeOf (fun u t => { u with P.type := t }),
   .raw (·.driveScale) (fun u w => { u with driveScale := w }),
   .raw (·.C.pre.b0) (fun u w => { u with C.pre.b0 := w }),
   .raw (·.C.pre.b1) (fun u w => { u with C.pre.b1 := w }),
   .raw (·.C.pre.b2) (fun u w => { u with C.pre.b2 := w }),
   .raw (·.C.pre.a1) (fun u w => { u with C.pre.a1 := w }),
   .raw (·.C.pre.a2) (fun u w => { u with C.pre.a2 := w }),
   .raw (·.C.post.b0) (fun u w => { u with C.post.b0 := w }),
   .raw (·.C.post.b1) (fun u w => { u with C.post.b1 := w }),
   .raw (·.C.post.b2) (fun u w => { u with C.post.b2 := w }),
   .raw (·.C.post.a1) (fun u w => { u with C.post.a1 := w }),
   .raw (·.C.post.a2) (fun u w => { u with C.post.a2 := w }),
   satCopy (·.pre.x1) (fun t w => { t with pre.x1 := w }),
   satCopy (·.pre.x2) (fun t w => { t with pre.x2 := w }),
   satCopy (·.pre.y1) (fun t w => { t with pre.y1 := w }),
   satCopy (·.pre.y2) (fun t w => { t with pre.y2 := w }),
   satCopy (·.post.x1) (fun t w => { t with post.x1 := w }),
   satCopy (·.post.x2) (fun t w => { t with post.x2 := w }),
   satCopy (·.post.y1) (fun t w => { t with post.y1 := w }),
   satCopy (·.post.y2) (fun t w => { t with post.y2 := w })]

/-- A register in a channel of PITCH. -/
def pitchCopy (get : PitchS → Word) (set : PitchS → Word → Option PitchS) : View Pitch :=
  .copy (·.ch) (fun u l => { u with ch := l }) ⟨0, 0, .unsized⟩ get set

/-- PITCH (rule R46). -/
def pitchViews : List (View Pitch) :=
  [.raw (·.P.amount) (fun u w => { u with P.amount := w }),
   .raw (·.P.windowMs) (fun u w => { u with P.windowMs := w }),
   .raw (·.C.ratio) (fun u w => { u with C.ratio := w }),
   .raw (·.C.step) (fun u w => { u with C.step := w }),
   .raw (·.C.win) (fun u w => { u with C.win := w }),
   pitchCopy (·.wpos) (fun t w => (cursorOf t.mem.cap w).map (fun v => { t with wpos := v })),
   pitchCopy (·.phase) (fun t w => some { t with phase := w })]

/-- A register in a channel of DLY. -/
def dlyCopy (get : DlyS → Word) (set : DlyS → Word → Option DlyS) : View Dly :=
  .copy (·.ch) (fun u l => { u with ch := l }) ⟨0, 0, .unsized⟩ get set

/-- DLY (rule R47). -/
def dlyViews : List (View Dly) :=
  [.raw (·.P.timeMs) (fun u w => { u with P.timeMs := w }),
   .raw (·.P.feedback) (fun u w => { u with P.feedback := w }),
   .raw (·.P.mix) (fun u w => { u with P.mix := w }),
   .raw (·.target) (fun u w => { u with target := w }),
   dlyCopy (·.current) (fun t w => some { t with current := w }),
   dlyCopy (·.wpos) (fun t w => (cursorOf t.mem.cap w).map (fun v => { t with wpos := v }))]

/-- A register in a channel of RVS. -/
def rvsCopy (get : RvsS → Word) (set : RvsS → Word → Option RvsS) : View Rvs :=
  .copy (·.ch) (fun u l => { u with ch := l }) ⟨[], []⟩ get set

/-- Comb `i` of a channel. -/
def RvsS.comb (s : RvsS) (i : Nat) : RvsComb := s.combs.getD i ⟨0, 0, .unsized⟩

/-- Allpass `j` of a channel. -/
def RvsS.ap (s : RvsS) (j : Nat) : RvsAp := s.aps.getD j ⟨0, .unsized⟩

/-- RVS (rule R49). -/
def rvsViews : List (View Rvs) :=
  [.raw (·.P.room) (fun u w => { u with P.room := w }),
   .raw (·.P.damp) (fun u w => { u with P.damp := w }),
   .raw (·.P.mix) (fun u w => { u with P.mix := w })] ++
  (List.range 8).map (fun i => .fixed (fun u => u.clen.getD i 0)) ++
  (List.range 4).map (fun j => .fixed (fun u => u.alen.getD j 0)) ++
  (List.range 8).map (fun i => rvsCopy (fun t => (t.comb i).idx)
    (fun t w => (cursorOf (t.comb i).mem.cap w).map
      (fun v => { t with combs := t.combs.set i { t.comb i with idx := v } }))) ++
  (List.range 8).map (fun i => rvsCopy (fun t => (t.comb i).filt)
    (fun t w => some { t with combs := t.combs.set i { t.comb i with filt := w } })) ++
  (List.range 4).map (fun j => rvsCopy (fun t => (t.ap j).idx)
    (fun t w => (cursorOf (t.ap j).mem.cap w).map
      (fun v => { t with aps := t.aps.set j { t.ap j with idx := v } })))

/-- A register in a channel of FDN. -/
def fdnCopy (get : FdnS → Word) (set : FdnS → Word → Option FdnS) : View Fdn :=
  .copy (·.ch) (fun u l => { u with ch := l }) ⟨0, [], []⟩ get set

/-- FDN (rule R50). -/
def fdnViews : List (View Fdn) :=
  [.raw (·.P.size) (fun u w => { u with P.size := w }),
   .raw (·.P.damp) (fun u w => { u with P.damp := w }),
   .raw (·.P.mix) (fun u w => { u with P.mix := w }),
   .raw (·.C.fbgain) (fun u w => { u with C.fbgain := w })] ++
  (List.range 8).map (fun i => .fixed (fun u => u.C.len.getD i 0)) ++
  [fdnCopy (·.wpos)
    (fun t w => (cursorOf (t.lb.headD .unsized).cap w).map (fun v => { t with wpos := v }))] ++
  (List.range 8).map (fun i => fdnCopy (fun t => t.lp.getD i 0) (fun t w => some { t with lp := t.lp.set i w }))

/-- A register in a pair of WID, which RD and WR address by its even channel (rule R118). -/
def widPair (get : WidS → Word) (set : WidS → Word → WidS) : View Wid :=
  ⟨fun u c => get (u.pairs.getD (c / 2) WidS.fresh),
   fun u c w => some { u with pairs := u.pairs.set (c / 2) (set (u.pairs.getD (c / 2) WidS.fresh) w) }⟩

/-- WID (rule R51). -/
def widViews : List (View Wid) :=
  [.raw (·.P.width) (fun u w => { u with P.width := w }),
   .raw (·.P.bassFreq) (fun u w => { u with P.bassFreq := w }),
   .coded (fun u => flagWord u.P.monoBass) flagOf (fun u b => { u with P.monoBass := b }),
   .raw (·.k) (fun u w => { u with k := w }),
   widPair (·.lpm) (fun t w => { t with lpm := w }),
   widPair (·.lps) (fun t w => { t with lps := w })]

/-- A register in a channel of OS. -/
def osCopy (get : OsS → Word) (set : OsS → Word → OsS) : View Os :=
  .copy (·.ch) (fun u l => { u with ch := l }) OsS.fresh get (fun t w => some (set t w))

/-- OS (rule R52). -/
def osViews : List (View Os) :=
  (List.range 16).map (fun k => osCopy (fun t => t.uph.getD k 0) (fun t w => { t with uph := t.uph.set k w })) ++
  (List.range 64).map (fun j => osCopy (fun t => t.dnh.getD j 0) (fun t w => { t with dnh := t.dnh.set j w }))

/-- A register in a channel of LIM. -/
def limCopy (get : LimS → Word) (set : LimS → Word → Option LimS) : View Lim :=
  .copy (·.ch) (fun u l => { u with ch := l }) ⟨0, 0, .unsized⟩ get set

/-- LIM (rule R53). -/
def limViews : List (View Lim) :=
  [.raw (·.P.ceilingDb) (fun u w => { u with P.ceilingDb := w }),
   .raw (·.P.releaseMs) (fun u w => { u with P.releaseMs := w }),
   .raw (·.P.lookaheadMs) (fun u w => { u with P.lookaheadMs := w }),
   .raw (·.C.ceilLin) (fun u w => { u with C.ceilLin := w }),
   .raw (·.C.rel) (fun u w => { u with C.rel := w }),
   .fixed (·.C.la),
   limCopy (·.wpos) (fun t w => (cursorOf t.lb.cap w).map (fun v => { t with wpos := v })),
   limCopy (·.genv) (fun t w => some { t with genv := w })]

/-- A register in a channel of XN. -/
def xnCopy (get : Six → Word) (set : Six → Word → Six) : View Xn :=
  .copy (·.lps) (fun u l => { u with lps := l }) Six.zero get (fun t w => some (set t w))

/-- XN (rule R54). -/
def xnViews : List (View Xn) :=
  [.raw (·.P.targetRmsDb) (fun u w => { u with P.targetRmsDb := w }),
   .raw (·.P.fMudLo) (fun u w => { u with P.fMudLo := w }),
   .raw (·.P.fMudHi) (fun u w => { u with P.fMudHi := w }),
   .raw (·.P.fCoreLo) (fun u w => { u with P.fCoreLo := w }),
   .raw (·.P.fCoreHi) (fun u w => { u with P.fCoreHi := w }),
   .raw (·.P.fScrLo) (fun u w => { u with P.fScrLo := w }),
   .raw (·.P.fScrHi) (fun u w => { u with P.fScrHi := w }),
   .raw (·.klp.v0) (fun u w => { u with klp.v0 := w }),
   .raw (·.klp.v1) (fun u w => { u with klp.v1 := w }),
   .raw (·.klp.v2) (fun u w => { u with klp.v2 := w }),
   .raw (·.klp.v3) (fun u w => { u with klp.v3 := w }),
   .raw (·.klp.v4) (fun u w => { u with klp.v4 := w }),
   .raw (·.klp.v5) (fun u w => { u with klp.v5 := w }),
   xnCopy (·.v0) (fun t w => { t with v0 := w }),
   xnCopy (·.v1) (fun t w => { t with v1 := w }),
   xnCopy (·.v2) (fun t w => { t with v2 := w }),
   xnCopy (·.v3) (fun t w => { t with v3 := w }),
   xnCopy (·.v4) (fun t w => { t with v4 := w }),
   xnCopy (·.v5) (fun t w => { t with v5 := w }),
   .raw (·.acc.n) (fun u w => { u with acc.n := w }),
   .raw (·.acc.sumsq) (fun u w => { u with acc.sumsq := w }),
   .raw (·.acc.peak) (fun u w => { u with acc.peak := w }),
   .raw (·.acc.sumsqMud) (fun u w => { u with acc.sumsqMud := w }),
   .raw (·.acc.sumsqCore) (fun u w => { u with acc.sumsqCore := w }),
   .raw (·.acc.sumsqScr) (fun u w => { u with acc.sumsqScr := w }),
   .raw (·.out.preGain) (fun u w => { u with out.preGain := w }),
   .raw (·.out.alGainDb) (fun u w => { u with out.alGainDb := w }),
   .raw (·.out.compThOffDb) (fun u w => { u with out.compThOffDb := w }),
   .raw (·.out.eqMudCutDb) (fun u w => { u with out.eqMudCutDb := w }),
   .raw (·.out.satDriveScale) (fun u w => { u with out.satDriveScale := w })]

/-- PIPE: the P registers under the check of rule R387, the latched copies (log entry 17), the read-only registers,
and `STATUS`, which a written one clears (rules R66, R69, R401). -/
def pipeViews (p : Params) : List (View Pipe) :=
  [.coded (·.P.en) (fun w => accept (enOk w) w) (fun u w => { u with P.en := w }),
   .coded (·.P.sel) (fun w => accept (selOk w) w) (fun u w => { u with P.sel := w }),
   .coded (·.P.eqKind) (fun w => accept (bandMaskOk p w) w) (fun u w => { u with P.eqKind := w }),
   .coded (·.P.eqBandEn) (fun w => accept (bandMaskOk p w) w) (fun u w => { u with P.eqBandEn := w }),
   .coded (·.P.eqMudBand) (fun w => accept (mudBandOk p w) w) (fun u w => { u with P.eqMudBand := w }),
   .raw (·.L.en) (fun u w => { u with L.en := w }),
   .raw (·.L.sel) (fun u w => { u with L.sel := w }),
   .raw (·.L.eqKind) (fun u w => { u with L.eqKind := w }),
   .raw (·.L.eqBandEn) (fun u w => { u with L.eqBandEn := w }),
   .raw (·.L.eqMudBand) (fun u w => { u with L.eqMudBand := w }),
   .fixed (·.fs),
   .fixed (fun u => flagWord u.osEn),
   .fixed (fun u => flagWord u.inBlock),
   .fixed (·.latency),
   .raw (·.status) (fun u w => { u with status := u.status &&& ~~~w })]

/-! ### One address -/

/-- What RD and WR see at a register address: the lifecycle of the unit or instance, the word, and the state with the
register written where it accepts the word. -/
structure Access where
  life : Life
  value : Word
  write : Word → Option State

/-- The access to register `r`, copy `c`, of a unit: `UFLAGS` and `FS_EFF` (rule R33), or a register of its file. -/
def unitAccess {U : Type} (life : Life) (snap : Bool) (views : List (View U)) (u : U) (put : U → State)
    (c r : Nat) : Access where
  life := life
  value :=
    if r = 0xF0 then uflagsWord life snap
    else if r = 0xF1 then life.fsEff
    else match views[r]? with
      | some v => v.get u c
      | none => 0
  write := fun w =>
    match views[r]? with
    | some v => (v.set u c w).map put
    | none => none

/-- The access to the register address `(u, c, i, r)` (rule R88). -/
def State.access (s : State) (u : UnitId) (c i r : Nat) : Access :=
  match u with
  | .env => unitAccess s.env.life false envViews s.env (fun v => { s with env := v }) c r
  | .bq => unitAccess (s.bqAt i).life false bqViews (s.bqAt i) (s.setBq i) c r
  | .svf => unitAccess (s.svfAt i).life false svfViews (s.svfAt i) (s.setSvf i) c r
  | .gate => unitAccess s.gate.life false gateViews s.gate (fun v => { s with gate := v }) c r
  | .agc => unitAccess s.agc.life false agcViews s.agc (fun v => { s with agc := v }) c r
  | .deess => unitAccess s.deess.life false deessViews s.deess (fun v => { s with deess := v }) c r
  | .comp => unitAccess s.comp.life false compViews s.comp (fun v => { s with comp := v }) c r
  | .fet => unitAccess s.fet.life false fetViews s.fet (fun v => { s with fet := v }) c r
  | .sat => unitAccess s.sat.life false satViews s.sat (fun v => { s with sat := v }) c r
  | .pitch => unitAccess s.pitch.life false pitchViews s.pitch (fun v => { s with pitch := v }) c r
  | .dly => unitAccess s.dly.life s.dly.snap dlyViews s.dly (fun v => { s with dly := v }) c r
  | .rvs => unitAccess s.rvs.life false rvsViews s.rvs (fun v => { s with rvs := v }) c r
  | .fdn => unitAccess s.fdn.life false fdnViews s.fdn (fun v => { s with fdn := v }) c r
  | .wid => unitAccess s.wid.life false widViews s.wid (fun v => { s with wid := v }) c r
  | .os => unitAccess s.os.life false osViews s.os (fun v => { s with os := v }) c r
  | .lim => unitAccess s.lim.life false limViews s.lim (fun v => { s with lim := v }) c r
  | .xn => unitAccess s.xn.life false xnViews s.xn (fun v => { s with xn := v }) c r
  | .pipe => unitAccess s.pipe.life false (pipeViews s.params) s.pipe (fun v => { s with pipe := v }) c r

/-- The class of register `r` of a unit, or `Illegal` where the address is not a register (rules R118, R400). -/
def State.registerClass (s : State) (u : UnitId) (c i r : Nat) : Except Raised RegClass :=
  match regClass u r with
  | some cls => if addressOk s.params u c i r then .ok cls else .error .illegal
  | none => .error .illegal

/-- The lifecycle checks by register class (rule R400). -/
def checkClass (cls : RegClass) (l : Life) : Except Raised Unit := do
  require (!cls.needsActive || l.active) .inactive
  require (!cls.needsConfigured || l.configured) .unconfigured

/-- The state with a register written, or `Param` where the register does not accept the word (rule R401). -/
def acceptedBy (o : Option State) : Except Raised State :=
  match o with
  | some t => .ok t
  | none => .error .param

/-- RD (rule R400). -/
def State.readReg (s : State) (u : UnitId) (c i r : Nat) : Except Raised Word := do
  let cls ← s.registerClass u c i r
  checkClass cls (s.access u c i r).life
  pure (s.access u c i r).value

/-- WR (rule R401): the one register is written and nothing is recomputed. -/
def State.writeReg (s : State) (u : UnitId) (c i r : Nat) (w : Word) : Except Raised State := do
  let cls ← s.registerClass u c i r
  require (!readOnlyReg u r) .illegal
  checkClass cls (s.access u c i r).life
  acceptedBy ((s.access u c i r).write w)

/-- `RD UNIT.REG ch=c idx=i` (rule R400). -/
def execRd (unit : UnitId) (ch : BitVec 4) (idx reg : BitVec 8) (s : State) :
    Host.Outcome State Fault Refusal := conclude s do
  let w ← s.readReg unit ch.toNat idx.toNat reg.toNat
  pure (s, [w])

/-- `WR UNIT.REG ch=c idx=i value` (rule R401). -/
def execWr (unit : UnitId) (ch : BitVec 4) (idx reg : BitVec 8) (value : Word) (s : State) :
    Host.Outcome State Fault Refusal := conclude s do
  let t ← s.writeReg unit ch.toNat idx.toNat reg.toNat value
  pure (t, [])

end Sys2Proof.Machine
end

