-- ==== Sys2Proof/Machine/SaveRestore.lean ====
section
/-! DEFINITION. PIPE.SAVE and PIPE.RESTORE: the persisted state as a record, its words in the fixed order of rule R404, the reader that accepts exactly those streams, and the two commands (rules R404 to R406). -/

namespace Sys2Proof.Machine

/-- The P registers of every unit, in UNIT order (rule R404). -/
structure Saved where
  env : EnvP
  bq : List BqP
  svf : List SvfP
  gate : GateP
  agc : AgcP
  deess : DeessP
  comp : CompP
  fet : FetP
  sat : SatP
  pitch : PitchP
  dly : DlyP
  rvs : RvsP
  fdn : FdnP
  wid : WidP
  lim : LimP
  xn : XnP
  pipe : PipeP
  deriving DecidableEq, Repr

/-- `NSAVE = 70 + 10·NEQ` (rule R404). -/
def nsave (p : Params) : Nat := 70 + 10 * p.neq

/-! ### Writing -/

/-- The words of an instance of BQ. -/
def bqSaved (P : BqP) : List Word := [bqTypeWord P.type, P.freq, P.q, P.gainDb]

/-- The words of an instance of SVF. -/
def svfSaved (P : SvfP) : List Word := [svfTypeWord P.type, P.freq, P.q, P.gainDb]

/-- The low `n` bits of a word, one word 0 or 1 each, bit 0 first (rule R404). -/
def bitWords (n : Nat) (w : Word) : List Word := (List.range n).map (fun i => flagWord (w.getLsbD i))

/-- The stream of rule R404. -/
def Saved.words (p : Params) (v : Saved) : List Word :=
  [v.env.tAtt, v.env.tRel] ++
  v.bq.flatMap bqSaved ++
  v.svf.flatMap svfSaved ++
  [v.gate.threshDb, v.gate.rangeDb, v.gate.attackMs, v.gate.holdMs, v.gate.releaseMs, v.gate.hystDb] ++
  [v.agc.targetDb, v.agc.rangeDb, v.agc.attackMs, v.agc.releaseMs] ++
  [v.deess.freq, v.deess.threshDb, v.deess.ratio, v.deess.attackMs, v.deess.releaseMs, v.deess.maxRedDb] ++
  [v.comp.threshDb, v.comp.ratio, v.comp.kneeDb, v.comp.attackMs, v.comp.releaseMs, v.comp.makeupDb] ++
  [v.fet.inputDb, v.fet.ratio, v.fet.attackMs, v.fet.releaseMs, flagWord v.fet.autoMakeup] ++
  [v.sat.drive, satTypeWord v.sat.type] ++
  [v.pitch.amount, v.pitch.windowMs] ++
  [v.dly.timeMs, v.dly.feedback, v.dly.mix] ++
  [v.rvs.room, v.rvs.damp, v.rvs.mix] ++
  [v.fdn.size, v.fdn.damp, v.fdn.mix] ++
  [v.wid.width, v.wid.bassFreq, flagWord v.wid.monoBass] ++
  [v.lim.ceilingDb, v.lim.releaseMs, v.lim.lookaheadMs] ++
  [v.xn.targetRmsDb, v.xn.fMudLo, v.xn.fMudHi, v.xn.fCoreLo, v.xn.fCoreHi, v.xn.fScrLo, v.xn.fScrHi] ++
  bitWords 12 v.pipe.en ++
  bitWords 2 v.pipe.sel ++
  bitWords p.neq v.pipe.eqKind ++
  bitWords p.neq v.pipe.eqBandEn ++
  [v.pipe.eqMudBand]

/-! ### Reading -/

/-- A reader of a stream: what it reads and the words after it, or nothing where a word is not accepted. -/
abbrev Reader (α : Type) := List Word → Option (α × List Word)

/-- A reader, then another that depends on what the first read. -/
def Reader.andThen {α β : Type} (r : Reader α) (f : α → Reader β) : Reader β := fun ws =>
  match r ws with
  | some (a, rest) => f a rest
  | none => none

/-- Reads nothing. -/
def Reader.done {α : Type} (a : α) : Reader α := fun ws => some (a, ws)

/-- Reads one word that `f` accepts. -/
def Reader.field {α : Type} (f : Word → Option α) : Reader α
  | [] => none
  | w :: rest => (f w).map (fun a => (a, rest))

/-- Reads one `f32` parameter word: every word is accepted (rule R405). -/
def Reader.word : Reader Word := Reader.field some

/-- Reads `n` values one after another. -/
def Reader.times {α : Type} (r : Reader α) : Nat → Reader (List α)
  | 0 => Reader.done []
  | n + 1 => r.andThen fun a => (Reader.times r n).andThen fun as => Reader.done (a :: as)

/-- Reads an instance of BQ; TYPE must be 0..4 (rule R405). -/
def readBq : Reader BqP :=
  (Reader.field bqTypeOf).andThen fun t => Reader.word.andThen fun f => Reader.word.andThen fun q =>
  Reader.word.andThen fun g => Reader.done ⟨t, f, q, g⟩

/-- Reads an instance of SVF; TYPE must be 0..2 (rule R405). -/
def readSvf : Reader SvfP :=
  (Reader.field svfTypeOf).andThen fun t => Reader.word.andThen fun f => Reader.word.andThen fun q =>
  Reader.word.andThen fun g => Reader.done ⟨t, f, q, g⟩

/-- The word whose low bits are the flags of the list, bit 0 first (rule R405: the bits reassembled). -/
def assemble : List Bool → Nat
  | [] => 0
  | b :: bs => (if b then 1 else 0) + 2 * assemble bs

/-- Reads `n` flag words as the low `n` bits of a word (rule R405). -/
def readBits (n : Nat) : Reader Word :=
  (Reader.times (Reader.field flagOf) n).andThen fun bs => Reader.done (BitVec.ofNat 32 (assemble bs))

/-- Reads `EQ_MUD_BAND`: all ones, or below NEQ (rule R405). -/
def readMudBand (p : Params) : Reader Word := Reader.field (fun w => accept (mudBandOk p w) w)

/-- Reads the Pipeline Configuration. -/
def readPipe (p : Params) : Reader PipeP :=
  (readBits 12).andThen fun en => (readBits 2).andThen fun sel => (readBits p.neq).andThen fun k =>
  (readBits p.neq).andThen fun e => (readMudBand p).andThen fun m => Reader.done ⟨en, sel, k, e, m⟩

/-- Reads ENV. -/
def readEnv : Reader EnvP :=
  Reader.word.andThen fun a => Reader.word.andThen fun b => Reader.done ⟨a, b⟩

/-- Reads GATE. -/
def readGate : Reader GateP :=
  Reader.word.andThen fun a => Reader.word.andThen fun b => Reader.word.andThen fun c =>
  Reader.word.andThen fun d => Reader.word.andThen fun e => Reader.word.andThen fun f =>
  Reader.done ⟨a, b, c, d, e, f⟩

/-- Reads AGC. -/
def readAgc : Reader AgcP :=
  Reader.word.andThen fun a => Reader.word.andThen fun b => Reader.word.andThen fun c =>
  Reader.word.andThen fun d => Reader.done ⟨a, b, c, d⟩

/-- Reads DEESS. -/
def readDeess : Reader DeessP :=
  Reader.word.andThen fun a => Reader.word.andThen fun b => Reader.word.andThen fun c =>
  Reader.word.andThen fun d => Reader.word.andThen fun e => Reader.word.andThen fun f =>
  Reader.done ⟨a, b, c, d, e, f⟩

/-- Reads COMP. -/
def readComp : Reader CompP :=
  Reader.word.andThen fun a => Reader.word.andThen fun b => Reader.word.andThen fun c =>
  Reader.word.andThen fun d => Reader.word.andThen fun e => Reader.word.andThen fun f =>
  Reader.done ⟨a, b, c, d, e, f⟩

/-- Reads FET; AUTO_MAKEUP must be 0 or 1 (rule R405). -/
def readFet : Reader FetP :=
  Reader.word.andThen fun a => Reader.word.andThen fun b => Reader.word.andThen fun c =>
  Reader.word.andThen fun d => (Reader.field flagOf).andThen fun m => Reader.done ⟨a, b, c, d, m⟩

/-- Reads SAT; TYPE must be 0 or 1 (rule R405). -/
def readSat : Reader SatP :=
  Reader.word.andThen fun d => (Reader.field satTypeOf).andThen fun t => Reader.done ⟨d, t⟩

/-- Reads PITCH. -/
def readPitch : Reader PitchP :=
  Reader.word.andThen fun a => Reader.word.andThen fun b => Reader.done ⟨a, b⟩

/-- Reads DLY. -/
def readDly : Reader DlyP :=
  Reader.word.andThen fun a => Reader.word.andThen fun b => Reader.word.andThen fun c => Reader.done ⟨a, b, c⟩

/-- Reads RVS. -/
def readRvs : Reader RvsP :=
  Reader.word.andThen fun a => Reader.word.andThen fun b => Reader.word.andThen fun c => Reader.done ⟨a, b, c⟩

/-- Reads FDN. -/
def readFdn : Reader FdnP :=
  Reader.word.andThen fun a => Reader.word.andThen fun b => Reader.word.andThen fun c => Reader.done ⟨a, b, c⟩

/-- Reads WID; MONO_BASS must be 0 or 1 (rule R405). -/
def readWid : Reader WidP :=
  Reader.word.andThen fun a => Reader.word.andThen fun b => (Reader.field flagOf).andThen fun m =>
  Reader.done ⟨a, b, m⟩

/-- Reads LIM. -/
def readLim : Reader LimP :=
  Reader.word.andThen fun a => Reader.word.andThen fun b => Reader.word.andThen fun c => Reader.done ⟨a, b, c⟩

/-- Reads XN. -/
def readXn : Reader XnP :=
  Reader.word.andThen fun a => Reader.word.andThen fun b => Reader.word.andThen fun c =>
  Reader.word.andThen fun d => Reader.word.andThen fun e => Reader.word.andThen fun f =>
  Reader.word.andThen fun g => Reader.done ⟨a, b, c, d, e, f, g⟩

/-- Reads a whole stream in the order of rule R404. -/
def readSaved (p : Params) : Reader Saved :=
  readEnv.andThen fun env => (Reader.times readBq p.neq).andThen fun bq =>
  (Reader.times readSvf p.neq).andThen fun svf => readGate.andThen fun gate => readAgc.andThen fun agc =>
  readDeess.andThen fun deess => readComp.andThen fun comp => readFet.andThen fun fet =>
  readSat.andThen fun sat => readPitch.andThen fun pitch => readDly.andThen fun dly =>
  readRvs.andThen fun rvs => readFdn.andThen fun fdn => readWid.andThen fun wid =>
  readLim.andThen fun lim => readXn.andThen fun xn => (readPipe p).andThen fun pipe =>
  Reader.done ⟨env, bq, svf, gate, agc, deess, comp, fet, sat, pitch, dly, rvs, fdn, wid, lim, xn, pipe⟩

/-- The record of a stream: every word accepted, none left over (rule R405). -/
def parseSaved (p : Params) (ws : List Word) : Option Saved :=
  match readSaved p ws with
  | some (v, []) => some v
  | _ => none

/-! ### The state and the record -/

/-- The P registers that the state holds. -/
def State.saved (s : State) : Saved where
  env := s.env.P
  bq := s.bq.map Bq.P
  svf := s.svf.map Svf.P
  gate := s.gate.P
  agc := s.agc.P
  deess := s.deess.P
  comp := s.comp.P
  fet := s.fet.P
  sat := s.sat.P
  pitch := s.pitch.P
  dly := s.dly.P
  rvs := s.rvs.P
  fdn := s.fdn.P
  wid := s.wid.P
  lim := s.lim.P
  xn := s.xn.P
  pipe := s.pipe.P

/-- Every unit with a CFG, every instance, PIPE included, is configured (rule R404). -/
def State.allConfigured (s : State) : Bool :=
  s.env.life.configured && s.bq.all (fun u => u.life.configured) && s.svf.all (fun u => u.life.configured) &&
  s.gate.life.configured && s.agc.life.configured && s.deess.life.configured && s.comp.life.configured &&
  s.fet.life.configured && s.sat.life.configured && s.pitch.life.configured && s.dly.life.configured &&
  s.rvs.life.configured && s.fdn.life.configured && s.wid.life.configured && s.lim.life.configured &&
  s.xn.life.configured && s.pipe.life.configured

/-- Every P register written and every unit configured, with what the unit's CFG does after that (rule R405). -/
def State.restored (s : State) (v : Saved) : State :=
  { s with
    env := s.env.cfg s.ctx v.env
    bq := List.zipWith (Bq.cfg s.ctx) s.bq v.bq
    svf := List.zipWith (Svf.cfg s.ctx) s.svf v.svf
    gate := s.gate.cfg s.ctx v.gate
    agc := s.agc.cfg s.ctx v.agc
    deess := s.deess.cfg s.ctx v.deess
    comp := s.comp.cfg s.ctx v.comp
    fet := s.fet.cfg s.ctx v.fet
    sat := s.sat.cfg v.sat
    pitch := s.pitch.cfg s.ctx v.pitch
    dly := s.dly.cfg s.ctx v.dly
    rvs := s.rvs.cfg v.rvs
    fdn := s.fdn.cfg s.ctx v.fdn
    wid := s.wid.cfg s.ctx v.wid
    lim := s.lim.cfg s.ctx v.lim
    xn := s.xn.cfg s.ctx v.xn
    pipe := s.pipe.cfg v.pipe }

/-- The record of a stream of the right length, or the status `Restore` (rule R405). -/
def streamOf (p : Params) (n : Word) (ws : List Word) : Except Raised Saved :=
  if n.toNat = nsave p then
    match parseSaved p ws with
    | some v => .ok v
    | none => .error .restore
  else .error .restore

/-- `PIPE.SAVE` (rule R404). -/
def execPipeSave (s : State) : Host.Outcome State Fault Refusal := conclude s do
  require (!s.pipe.midBlock) .sequence
  require s.allConfigured .unconfigured
  pure (s, s.saved.words s.params)

/-- `PIPE.RESTORE n, w[0], .., w[n-1]` (rule R405). -/
def execPipeRestore (n : Word) (ws : List Word) (s : State) : Host.Outcome State Fault Refusal := conclude s do
  require (!s.pipe.midBlock) .sequence
  let v ← streamOf s.params n ws
  pure (s.restored v, [])

end Sys2Proof.Machine
end

