-- ==== Sys2Proof/Machine/Dispatch.lean ====
section
/-! DEFINITION. One arm per command of rule R116: each calls the meaning of its command. -/

namespace Sys2Proof.Machine

def exec (i : Instr) (s : State) : Host.Outcome State Fault Refusal :=
  match i with
  | .envRst fs => Sys2Proof.Machine.execEnvRst fs s
  | .envCfg tAtt tRel => Sys2Proof.Machine.execEnvCfg tAtt tRel s
  | .envProc ch x => Sys2Proof.Machine.execEnvProc ch x s
  | .bqRst fs => Sys2Proof.Machine.execBqRst fs s
  | .bqCfg idx type freq q gainDb => Sys2Proof.Machine.execBqCfg idx type freq q gainDb s
  | .bqProc ch idx x => Sys2Proof.Machine.execBqProc ch idx x s
  | .bqGoff idx offsetDb => Sys2Proof.Machine.execBqGoff idx offsetDb s
  | .svfRst fs => Sys2Proof.Machine.execSvfRst fs s
  | .svfCfg idx type freq q gainDb => Sys2Proof.Machine.execSvfCfg idx type freq q gainDb s
  | .svfProc ch idx x => Sys2Proof.Machine.execSvfProc ch idx x s
  | .svfGoff idx offsetDb => Sys2Proof.Machine.execSvfGoff idx offsetDb s
  | .gateRst fs => Sys2Proof.Machine.execGateRst fs s
  | .gateCfg threshDb rangeDb attackMs holdMs releaseMs hystDb => Sys2Proof.Machine.execGateCfg threshDb rangeDb attackMs holdMs releaseMs hystDb s
  | .gateProc ch x => Sys2Proof.Machine.execGateProc ch x s
  | .agcRst fs => Sys2Proof.Machine.execAgcRst fs s
  | .agcCfg targetDb rangeDb attackMs releaseMs => Sys2Proof.Machine.execAgcCfg targetDb rangeDb attackMs releaseMs s
  | .agcProc ch x => Sys2Proof.Machine.execAgcProc ch x s
  | .agcExt extMode gainDb => Sys2Proof.Machine.execAgcExt extMode gainDb s
  | .deessRst fs => Sys2Proof.Machine.execDeessRst fs s
  | .deessCfg freq threshDb ratio attackMs releaseMs maxRedDb => Sys2Proof.Machine.execDeessCfg freq threshDb ratio attackMs releaseMs maxRedDb s
  | .deessProc ch x => Sys2Proof.Machine.execDeessProc ch x s
  | .compRst fs => Sys2Proof.Machine.execCompRst fs s
  | .compCfg threshDb ratio kneeDb attackMs releaseMs makeupDb => Sys2Proof.Machine.execCompCfg threshDb ratio kneeDb attackMs releaseMs makeupDb s
  | .compProc ch x => Sys2Proof.Machine.execCompProc ch x s
  | .fetRst fs => Sys2Proof.Machine.execFetRst fs s
  | .fetCfg autoMakeup inputDb ratio attackMs releaseMs => Sys2Proof.Machine.execFetCfg autoMakeup inputDb ratio attackMs releaseMs s
  | .fetProc ch x => Sys2Proof.Machine.execFetProc ch x s
  | .fetThoff offsetDb => Sys2Proof.Machine.execFetThoff offsetDb s
  | .satRst fs => Sys2Proof.Machine.execSatRst fs s
  | .satCfg type drive => Sys2Proof.Machine.execSatCfg type drive s
  | .satProc ch x => Sys2Proof.Machine.execSatProc ch x s
  | .satDscale scale => Sys2Proof.Machine.execSatDscale scale s
  | .pitchRst fs => Sys2Proof.Machine.execPitchRst fs s
  | .pitchCfg amount windowMs => Sys2Proof.Machine.execPitchCfg amount windowMs s
  | .pitchProc ch x => Sys2Proof.Machine.execPitchProc ch x s
  | .dlyRst fs => Sys2Proof.Machine.execDlyRst fs s
  | .dlyCfg timeMs feedback mix => Sys2Proof.Machine.execDlyCfg timeMs feedback mix s
  | .dlyProc ch x => Sys2Proof.Machine.execDlyProc ch x s
  | .rvsRst fs => Sys2Proof.Machine.execRvsRst fs s
  | .rvsCfg room damp mix => Sys2Proof.Machine.execRvsCfg room damp mix s
  | .rvsProc ch x => Sys2Proof.Machine.execRvsProc ch x s
  | .fdnRst fs => Sys2Proof.Machine.execFdnRst fs s
  | .fdnCfg size damp mix => Sys2Proof.Machine.execFdnCfg size damp mix s
  | .fdnProc ch x => Sys2Proof.Machine.execFdnProc ch x s
  | .widRst fs => Sys2Proof.Machine.execWidRst fs s
  | .widCfg monoBass width bassFreq => Sys2Proof.Machine.execWidCfg monoBass width bassFreq s
  | .widProc ch l r => Sys2Proof.Machine.execWidProc ch l r s
  | .osRst => Sys2Proof.Machine.execOsRst s
  | .osUp ch x => Sys2Proof.Machine.execOsUp ch x s
  | .osDown ch u0 u1 u2 u3 => Sys2Proof.Machine.execOsDown ch u0 u1 u2 u3 s
  | .limRst fs => Sys2Proof.Machine.execLimRst fs s
  | .limCfg ceilingDb releaseMs lookaheadMs => Sys2Proof.Machine.execLimCfg ceilingDb releaseMs lookaheadMs s
  | .limProc ch x => Sys2Proof.Machine.execLimProc ch x s
  | .xnRst fs => Sys2Proof.Machine.execXnRst fs s
  | .xnCfg targetRmsDb fMudLo fMudHi fCoreLo fCoreHi fScrLo fScrHi => Sys2Proof.Machine.execXnCfg targetRmsDb fMudLo fMudHi fCoreLo fCoreHi fScrLo fScrHi s
  | .xnAcc ch x => Sys2Proof.Machine.execXnAcc ch x s
  | .xnAnalyze => Sys2Proof.Machine.execXnAnalyze s
  | .pipeRst osEn fs => Sys2Proof.Machine.execPipeRst osEn fs s
  | .pipeCfg en sel eqKind eqBandEn eqMudBand => Sys2Proof.Machine.execPipeCfg en sel eqKind eqBandEn eqMudBand s
  | .pipeFrame xs => Sys2Proof.Machine.execPipeFrame xs s
  | .pipeBegin => Sys2Proof.Machine.execPipeBegin s
  | .pipeEnd => Sys2Proof.Machine.execPipeEnd s
  | .pipeDeinit => Sys2Proof.Machine.execPipeDeinit s
  | .pipeSave => Sys2Proof.Machine.execPipeSave s
  | .pipeRestore n ws => Sys2Proof.Machine.execPipeRestore n ws s
  | .rd unit ch idx reg => Sys2Proof.Machine.execRd unit ch idx reg s
  | .wr unit ch idx reg value => Sys2Proof.Machine.execWr unit ch idx reg value s

end Sys2Proof.Machine
end

