-- ==== Sys2Proof/Decode.lean ====
section
/-! DEFINITION. From the words on the port to a command (rules R110 to R118) and back: the decoder, total on any words and rejecting by name, then the encoder. -/

namespace Sys2Proof

/-- Why a command word is no row of rule R116, whatever the build (rule R118). -/
inductive IllegalWord where
  /-- UNIT is 0x12..0xFF -/
  | reservedUnit
  /-- OP is 6..15 -/
  | reservedOp
  /-- `(UNIT, OP)` is not a row of rule R116 -/
  | noSuchRow
  /-- IDX is 5..255 in a PIPE AUX command -/
  | reservedPipeAux
  /-- a field that has no meaning for the command is not 0 -/
  | fieldNotZero
  /-- MODE is not a listed value of rule R114 -/
  | reservedMode
  deriving DecidableEq, Repr

/-- What keeps the words on the port from being a command. -/
inductive DecodeError where
  /-- there is no command word on the port -/
  | noCommand
  /-- operand words of the transaction are still to come (rule R110) -/
  | incomplete
  /-- the command word is illegal; `operands` operand words belong to it and are consumed (rule R118) -/
  | illegal (why : IllegalWord) (operands : Nat)
  deriving DecidableEq, Repr

/-! ### The fields of the command word (rule R111) -/

/-- `UNIT = w[31:24]` -/
def unitField (w : Word) : BitVec 8 := w.extractLsb' 24 8
/-- `OP = w[23:20]` -/
def opField (w : Word) : BitVec 4 := w.extractLsb' 20 4
/-- `CH = w[19:16]` -/
def chField (w : Word) : BitVec 4 := w.extractLsb' 16 4
/-- `IDX = w[15:8]` -/
def idxField (w : Word) : BitVec 8 := w.extractLsb' 8 8
/-- `MODE = w[7:0]` -/
def modeField (w : Word) : BitVec 8 := w.extractLsb' 0 8

/-- The units in UNIT order (rule R31). -/
def unitTable : List UnitId :=
  [.env, .bq, .svf, .gate, .agc, .deess, .comp, .fet, .sat, .pitch, .dly, .rvs, .fdn, .wid, .os, .lim, .xn, .pipe]

/-- The operations in OP order (rule R112). -/
def opTable : List Op := [.rst, .cfg, .proc, .aux, .rd, .wr]

/-- The PIPE AUX sub-operations in IDX order (rule R115). -/
def pipeAuxTable : List PipeAux := [.begin, .finish, .deinit, .save, .restore]

/-- The biquad types in MODE order (rule R114). -/
def bqTypeTable : List BqType := [.lowShelf, .highShelf, .peaking, .lowPass, .highPass]

/-- The state-variable filter types in MODE order (rule R114). -/
def svfTypeTable : List SvfType := [.highPass, .peaking, .lowPass]

/-- The saturator types in MODE order (rule R114). -/
def satTypeTable : List SatType := [.cubic, .tanh]

/-- The two values of a flag code (rule R114: 0 off, 1 on). -/
def flagTable : List Bool := [false, true]

/-! ### How many operand words a row has (rules R110, R116) -/

/-- The operand count of a row of rule R116 other than a PIPE AUX row, `none` where there is no such row. -/
def rowOperands (nch : Nat) : UnitId → Op → Option Nat
  | _, .rd => some 0
  | _, .wr => some 1
  | .os, .rst => some 0
  | _, .rst => some 1
  | u, .cfg =>
    match u with
    | .env => some 2
    | .bq => some 3
    | .svf => some 3
    | .gate => some 6
    | .agc => some 4
    | .deess => some 6
    | .comp => some 6
    | .fet => some 4
    | .sat => some 1
    | .pitch => some 2
    | .dly => some 3
    | .rvs => some 3
    | .fdn => some 3
    | .wid => some 2
    | .os => none
    | .lim => some 3
    | .xn => some 7
    | .pipe => some 5
  | u, .proc =>
    match u with
    | .wid => some 2
    | .pipe => some nch
    | _ => some 1
  | u, .aux =>
    match u with
    | .bq => some 1
    | .svf => some 1
    | .agc => some 1
    | .fet => some 1
    | .sat => some 1
    | .os => some 4
    | .xn => some 0
    | _ => none

/-- How many operand words belong to the command word `w`, with `rest` the words behind it on the port: the count of
its row, 0 where there is no row (rule R118), and for `PIPE.RESTORE` one more than its first operand word says
(rule R110); `none` while that word has not come. A reserved UNIT with OP 5 (WR) is taken to name no row: the model's
choice, since the WR row of rule R116 has UNIT `any` while rule R111 ends UNIT at 0x11 (log entry 16). -/
def operandCount (nch : Nat) (w : Word) (rest : List Word) : Option Nat :=
  match unitTable[(unitField w).toNat]?, opTable[(opField w).toNat]? with
  | some .pipe, some .aux =>
    match pipeAuxTable[(idxField w).toNat]? with
    | some .restore => rest.head?.map (fun n => 1 + n.toNat)
    | _ => some 0
  | some u, some o => some ((rowOperands nch u o).getD 0)
  | _, _ => some 0

/-! ### The rows, unit by unit -/

/-- A command with no variable field: CH, IDX and MODE must be 0 (rule R111). -/
def noField (ch : BitVec 4) (idx mode : BitVec 8) (i : Instr) : Except IllegalWord Instr :=
  if ch = 0 ∧ idx = 0 ∧ mode = 0 then .ok i else .error .fieldNotZero

/-- A command whose only variable field is CH. -/
def chOnly (idx mode : BitVec 8) (i : Instr) : Except IllegalWord Instr :=
  if idx = 0 ∧ mode = 0 then .ok i else .error .fieldNotZero

/-- A command whose only variable field is IDX. -/
def idxOnly (ch : BitVec 4) (mode : BitVec 8) (i : Instr) : Except IllegalWord Instr :=
  if ch = 0 ∧ mode = 0 then .ok i else .error .fieldNotZero

/-- A command with the variable fields CH and IDX. -/
def chIdx (mode : BitVec 8) (i : Instr) : Except IllegalWord Instr :=
  if mode = 0 then .ok i else .error .fieldNotZero

/-- A command with a MODE code of rule R114 and no other variable field. -/
def modeCode {α : Type} (codes : List α) (ch : BitVec 4) (idx mode : BitVec 8) (f : α → Instr) :
    Except IllegalWord Instr :=
  if ch = 0 ∧ idx = 0 then
    match codes[mode.toNat]? with
    | some a => .ok (f a)
    | none => .error .reservedMode
  else .error .fieldNotZero

/-- A command with an instance in IDX and a MODE code of rule R114. -/
def idxModeCode {α : Type} (codes : List α) (ch : BitVec 4) (mode : BitVec 8) (f : α → Instr) :
    Except IllegalWord Instr :=
  if ch = 0 then
    match codes[mode.toNat]? with
    | some a => .ok (f a)
    | none => .error .reservedMode
  else .error .fieldNotZero

/-- The rows of OP 0, `RST`. -/
def buildRst (u : UnitId) (ch : BitVec 4) (idx mode : BitVec 8) (ops : List Word) : Except IllegalWord Instr :=
  match u, ops with
  | .env, [fs] => noField ch idx mode (.envRst fs)
  | .bq, [fs] => noField ch idx mode (.bqRst fs)
  | .svf, [fs] => noField ch idx mode (.svfRst fs)
  | .gate, [fs] => noField ch idx mode (.gateRst fs)
  | .agc, [fs] => noField ch idx mode (.agcRst fs)
  | .deess, [fs] => noField ch idx mode (.deessRst fs)
  | .comp, [fs] => noField ch idx mode (.compRst fs)
  | .fet, [fs] => noField ch idx mode (.fetRst fs)
  | .sat, [fs] => noField ch idx mode (.satRst fs)
  | .pitch, [fs] => noField ch idx mode (.pitchRst fs)
  | .dly, [fs] => noField ch idx mode (.dlyRst fs)
  | .rvs, [fs] => noField ch idx mode (.rvsRst fs)
  | .fdn, [fs] => noField ch idx mode (.fdnRst fs)
  | .wid, [fs] => noField ch idx mode (.widRst fs)
  | .os, [] => noField ch idx mode .osRst
  | .lim, [fs] => noField ch idx mode (.limRst fs)
  | .xn, [fs] => noField ch idx mode (.xnRst fs)
  | .pipe, [fs] => modeCode flagTable ch idx mode (fun os => .pipeRst os fs)
  | _, _ => .error .noSuchRow

/-- The rows of OP 1, `CFG`. -/
def buildCfg (u : UnitId) (ch : BitVec 4) (idx mode : BitVec 8) (ops : List Word) : Except IllegalWord Instr :=
  match u with
  | .env => match ops with
    | [a, r] => noField ch idx mode (.envCfg a r)
    | _ => .error .noSuchRow
  | .bq => match ops with
    | [f, q, g] => idxModeCode bqTypeTable ch mode (fun t => .bqCfg idx t f q g)
    | _ => .error .noSuchRow
  | .svf => match ops with
    | [f, q, g] => idxModeCode svfTypeTable ch mode (fun t => .svfCfg idx t f q g)
    | _ => .error .noSuchRow
  | .gate => match ops with
    | [a, b, c, d, e, f] => noField ch idx mode (.gateCfg a b c d e f)
    | _ => .error .noSuchRow
  | .agc => match ops with
    | [a, b, c, d] => noField ch idx mode (.agcCfg a b c d)
    | _ => .error .noSuchRow
  | .deess => match ops with
    | [a, b, c, d, e, f] => noField ch idx mode (.deessCfg a b c d e f)
    | _ => .error .noSuchRow
  | .comp => match ops with
    | [a, b, c, d, e, f] => noField ch idx mode (.compCfg a b c d e f)
    | _ => .error .noSuchRow
  | .fet => match ops with
    | [a, b, c, d] => modeCode flagTable ch idx mode (fun m => .fetCfg m a b c d)
    | _ => .error .noSuchRow
  | .sat => match ops with
    | [d] => modeCode satTypeTable ch idx mode (fun t => .satCfg t d)
    | _ => .error .noSuchRow
  | .pitch => match ops with
    | [a, b] => noField ch idx mode (.pitchCfg a b)
    | _ => .error .noSuchRow
  | .dly => match ops with
    | [a, b, c] => noField ch idx mode (.dlyCfg a b c)
    | _ => .error .noSuchRow
  | .rvs => match ops with
    | [a, b, c] => noField ch idx mode (.rvsCfg a b c)
    | _ => .error .noSuchRow
  | .fdn => match ops with
    | [a, b, c] => noField ch idx mode (.fdnCfg a b c)
    | _ => .error .noSuchRow
  | .wid => match ops with
    | [a, b] => modeCode flagTable ch idx mode (fun m => .widCfg m a b)
    | _ => .error .noSuchRow
  | .os => .error .noSuchRow
  | .lim => match ops with
    | [a, b, c] => noField ch idx mode (.limCfg a b c)
    | _ => .error .noSuchRow
  | .xn => match ops with
    | [a, b, c, d, e, f, g] => noField ch idx mode (.xnCfg a b c d e f g)
    | _ => .error .noSuchRow
  | .pipe => match ops with
    | [a, b, c, d, e] => noField ch idx mode (.pipeCfg a b c d e)
    | _ => .error .noSuchRow

/-- The rows of OP 2, `PROC` (`OS.UP`, `XN.ACC` and `PIPE.FRAME` among them). -/
def buildProc (u : UnitId) (ch : BitVec 4) (idx mode : BitVec 8) (ops : List Word) : Except IllegalWord Instr :=
  match u, ops with
  | .env, [x] => chOnly idx mode (.envProc ch x)
  | .bq, [x] => chIdx mode (.bqProc ch idx x)
  | .svf, [x] => chIdx mode (.svfProc ch idx x)
  | .gate, [x] => chOnly idx mode (.gateProc ch x)
  | .agc, [x] => chOnly idx mode (.agcProc ch x)
  | .deess, [x] => chOnly idx mode (.deessProc ch x)
  | .comp, [x] => chOnly idx mode (.compProc ch x)
  | .fet, [x] => chOnly idx mode (.fetProc ch x)
  | .sat, [x] => chOnly idx mode (.satProc ch x)
  | .pitch, [x] => chOnly idx mode (.pitchProc ch x)
  | .dly, [x] => chOnly idx mode (.dlyProc ch x)
  | .rvs, [x] => chOnly idx mode (.rvsProc ch x)
  | .fdn, [x] => chOnly idx mode (.fdnProc ch x)
  | .wid, [l, r] => chOnly idx mode (.widProc ch l r)
  | .os, [x] => chOnly idx mode (.osUp ch x)
  | .lim, [x] => chOnly idx mode (.limProc ch x)
  | .xn, [x] => chOnly idx mode (.xnAcc ch x)
  | .pipe, xs => noField ch idx mode (.pipeFrame xs)
  | _, _ => .error .noSuchRow

/-- The rows of OP 3, `AUX`, those of PIPE by IDX (rule R115). -/
def buildAux (u : UnitId) (ch : BitVec 4) (idx mode : BitVec 8) (ops : List Word) : Except IllegalWord Instr :=
  match u with
  | .bq => match ops with
    | [d] => idxOnly ch mode (.bqGoff idx d)
    | _ => .error .noSuchRow
  | .svf => match ops with
    | [d] => idxOnly ch mode (.svfGoff idx d)
    | _ => .error .noSuchRow
  | .agc => match ops with
    | [g] => modeCode flagTable ch idx mode (fun m => .agcExt m g)
    | _ => .error .noSuchRow
  | .fet => match ops with
    | [d] => noField ch idx mode (.fetThoff d)
    | _ => .error .noSuchRow
  | .sat => match ops with
    | [d] => noField ch idx mode (.satDscale d)
    | _ => .error .noSuchRow
  | .os => match ops with
    | [a, b, c, d] => chOnly idx mode (.osDown ch a b c d)
    | _ => .error .noSuchRow
  | .xn => match ops with
    | [] => noField ch idx mode .xnAnalyze
    | _ => .error .noSuchRow
  | .pipe => match pipeAuxTable[idx.toNat]? with
    | some .begin => idxOnly ch mode .pipeBegin
    | some .finish => idxOnly ch mode .pipeEnd
    | some .deinit => idxOnly ch mode .pipeDeinit
    | some .save => idxOnly ch mode .pipeSave
    | some .restore => match ops with
      | n :: ws => idxOnly ch mode (.pipeRestore n ws)
      | [] => .error .noSuchRow
    | none => .error .reservedPipeAux
  | _ => .error .noSuchRow

/-- The command that a unit, an operation, the three small fields and the operand words make (rules R111, R116, R118).
RD and WR are rows of every unit (rule R117). -/
def build (u : UnitId) (o : Op) (ch : BitVec 4) (idx mode : BitVec 8) (ops : List Word) : Except IllegalWord Instr :=
  match o with
  | .rst => buildRst u ch idx mode ops
  | .cfg => buildCfg u ch idx mode ops
  | .proc => buildProc u ch idx mode ops
  | .aux => buildAux u ch idx mode ops
  | .rd => .ok (.rd u ch idx mode)
  | .wr => match ops with
    | [v] => .ok (.wr u ch idx mode v)
    | _ => .error .noSuchRow

/-- The command that a command word makes with the operand words that belong to it (rules R117, R118). -/
def decodeWord (w : Word) (ops : List Word) : Except IllegalWord Instr :=
  match unitTable[(unitField w).toNat]? with
  | none => .error .reservedUnit
  | some u =>
    match opTable[(opField w).toNat]? with
    | none => .error .reservedOp
    | some o => build u o (chField w) (idxField w) (modeField w) ops

/-- Reads one transaction from the words on the port (rule R110): the command, and the words that follow it. The
operand words of an illegal command word belong to it (rule R118). -/
def decode (p : Params) : List Word → Except DecodeError (Instr × List Word)
  | [] => .error .noCommand
  | w :: rest =>
    match operandCount p.nch w rest with
    | none => .error .incomplete
    | some n =>
      if rest.length < n then .error .incomplete
      else match decodeWord w (rest.take n) with
        | .ok i => .ok (i, rest.drop n)
        | .error e => .error (.illegal e n)

/-! ### The host's numbering of an instruction's bits -/

/-- The words that `nbits` bits make, the first word least significant. -/
def wordsOfBits (nbits w : Nat) : List Word :=
  (List.range ((nbits + 31) / 32)).map (fun k => BitVec.ofNat 32 (w / 2 ^ (32 * k)))

/-- Words of a command followed by as many words of zeros as its transaction still lacks. -/
def completeTransaction (nch : Nat) (ws : List Word) : List Word :=
  ws ++ List.replicate ((operandCount nch (ws.headD 0) (ws.tail ++ [0])).getD 0 + 1 - ws.length) 0

/-- The transaction of an instruction whose bits are `w`, numbered from the least significant bit of its first word;
the operand words that the bits do not reach are zero. -/
def tableWords (p : Params) (nbits w : Nat) : List Word := completeTransaction p.nch (wordsOfBits nbits w)

/-- The command that the decoder reads from an instruction whose bits are `w` (the standard build). -/
def decodeTableWord (nbits w : Nat) : Option Instr :=
  match decode Params.standard (tableWords Params.standard nbits w) with
  | .ok (i, _) => some i
  | .error _ => none

/-! ### The encoder -/

/-- UNIT code (rule R31). -/
def UnitId.code : UnitId → BitVec 8
  | .env => 0x00 | .bq => 0x01 | .svf => 0x02 | .gate => 0x03 | .agc => 0x04 | .deess => 0x05
  | .comp => 0x06 | .fet => 0x07 | .sat => 0x08 | .pitch => 0x09 | .dly => 0x0A | .rvs => 0x0B
  | .fdn => 0x0C | .wid => 0x0D | .os => 0x0E | .lim => 0x0F | .xn => 0x10 | .pipe => 0x11

/-- OP code (rule R112). -/
def Op.code : Op → BitVec 4
  | .rst => 0 | .cfg => 1 | .proc => 2 | .aux => 3 | .rd => 4 | .wr => 5

/-- IDX code of a PIPE AUX command (rule R115). -/
def PipeAux.code : PipeAux → BitVec 8
  | .begin => 0 | .finish => 1 | .deinit => 2 | .save => 3 | .restore => 4

/-- MODE code of a biquad type (rule R114). -/
def BqType.code : BqType → BitVec 8
  | .lowShelf => 0 | .highShelf => 1 | .peaking => 2 | .lowPass => 3 | .highPass => 4

/-- MODE code of a state-variable filter type (rule R114). -/
def SvfType.code : SvfType → BitVec 8
  | .highPass => 0 | .peaking => 1 | .lowPass => 2

/-- MODE code of a saturator type (rule R114). -/
def SatType.code : SatType → BitVec 8
  | .cubic => 0 | .tanh => 1

/-- MODE code of a flag (rule R114). -/
def flagCode : Bool → BitVec 8
  | false => 0 | true => 1

/-- `UNIT ++ OP ++ CH ++ IDX ++ MODE` (rule R111). -/
def commandWord (u : UnitId) (o : Op) (ch : BitVec 4) (idx mode : BitVec 8) : Word :=
  u.code ++ o.code ++ ch ++ idx ++ mode

/-- The words that the host sends for a command (rules R110, R111, R116). -/
def encode : Instr → List Word
  | .envRst fs => [commandWord .env .rst 0 0 0, fs]
  | .envCfg a r => [commandWord .env .cfg 0 0 0, a, r]
  | .envProc ch x => [commandWord .env .proc ch 0 0, x]
  | .bqRst fs => [commandWord .bq .rst 0 0 0, fs]
  | .bqCfg idx t f q g => [commandWord .bq .cfg 0 idx t.code, f, q, g]
  | .bqProc ch idx x => [commandWord .bq .proc ch idx 0, x]
  | .bqGoff idx d => [commandWord .bq .aux 0 idx 0, d]
  | .svfRst fs => [commandWord .svf .rst 0 0 0, fs]
  | .svfCfg idx t f q g => [commandWord .svf .cfg 0 idx t.code, f, q, g]
  | .svfProc ch idx x => [commandWord .svf .proc ch idx 0, x]
  | .svfGoff idx d => [commandWord .svf .aux 0 idx 0, d]
  | .gateRst fs => [commandWord .gate .rst 0 0 0, fs]
  | .gateCfg a b c d e f => [commandWord .gate .cfg 0 0 0, a, b, c, d, e, f]
  | .gateProc ch x => [commandWord .gate .proc ch 0 0, x]
  | .agcRst fs => [commandWord .agc .rst 0 0 0, fs]
  | .agcCfg a b c d => [commandWord .agc .cfg 0 0 0, a, b, c, d]
  | .agcProc ch x => [commandWord .agc .proc ch 0 0, x]
  | .agcExt m g => [commandWord .agc .aux 0 0 (flagCode m), g]
  | .deessRst fs => [commandWord .deess .rst 0 0 0, fs]
  | .deessCfg a b c d e f => [commandWord .deess .cfg 0 0 0, a, b, c, d, e, f]
  | .deessProc ch x => [commandWord .deess .proc ch 0 0, x]
  | .compRst fs => [commandWord .comp .rst 0 0 0, fs]
  | .compCfg a b c d e f => [commandWord .comp .cfg 0 0 0, a, b, c, d, e, f]
  | .compProc ch x => [commandWord .comp .proc ch 0 0, x]
  | .fetRst fs => [commandWord .fet .rst 0 0 0, fs]
  | .fetCfg m a b c d => [commandWord .fet .cfg 0 0 (flagCode m), a, b, c, d]
  | .fetProc ch x => [commandWord .fet .proc ch 0 0, x]
  | .fetThoff d => [commandWord .fet .aux 0 0 0, d]
  | .satRst fs => [commandWord .sat .rst 0 0 0, fs]
  | .satCfg t d => [commandWord .sat .cfg 0 0 t.code, d]
  | .satProc ch x => [commandWord .sat .proc ch 0 0, x]
  | .satDscale d => [commandWord .sat .aux 0 0 0, d]
  | .pitchRst fs => [commandWord .pitch .rst 0 0 0, fs]
  | .pitchCfg a b => [commandWord .pitch .cfg 0 0 0, a, b]
  | .pitchProc ch x => [commandWord .pitch .proc ch 0 0, x]
  | .dlyRst fs => [commandWord .dly .rst 0 0 0, fs]
  | .dlyCfg a b c => [commandWord .dly .cfg 0 0 0, a, b, c]
  | .dlyProc ch x => [commandWord .dly .proc ch 0 0, x]
  | .rvsRst fs => [commandWord .rvs .rst 0 0 0, fs]
  | .rvsCfg a b c => [commandWord .rvs .cfg 0 0 0, a, b, c]
  | .rvsProc ch x => [commandWord .rvs .proc ch 0 0, x]
  | .fdnRst fs => [commandWord .fdn .rst 0 0 0, fs]
  | .fdnCfg a b c => [commandWord .fdn .cfg 0 0 0, a, b, c]
  | .fdnProc ch x => [commandWord .fdn .proc ch 0 0, x]
  | .widRst fs => [commandWord .wid .rst 0 0 0, fs]
  | .widCfg m a b => [commandWord .wid .cfg 0 0 (flagCode m), a, b]
  | .widProc ch l r => [commandWord .wid .proc ch 0 0, l, r]
  | .osRst => [commandWord .os .rst 0 0 0]
  | .osUp ch x => [commandWord .os .proc ch 0 0, x]
  | .osDown ch a b c d => [commandWord .os .aux ch 0 0, a, b, c, d]
  | .limRst fs => [commandWord .lim .rst 0 0 0, fs]
  | .limCfg a b c => [commandWord .lim .cfg 0 0 0, a, b, c]
  | .limProc ch x => [commandWord .lim .proc ch 0 0, x]
  | .xnRst fs => [commandWord .xn .rst 0 0 0, fs]
  | .xnCfg a b c d e f g => [commandWord .xn .cfg 0 0 0, a, b, c, d, e, f, g]
  | .xnAcc ch x => [commandWord .xn .proc ch 0 0, x]
  | .xnAnalyze => [commandWord .xn .aux 0 0 0]
  | .pipeRst os fs => [commandWord .pipe .rst 0 0 (flagCode os), fs]
  | .pipeCfg a b c d e => [commandWord .pipe .cfg 0 0 0, a, b, c, d, e]
  | .pipeFrame xs => commandWord .pipe .proc 0 0 0 :: xs
  | .pipeBegin => [commandWord .pipe .aux 0 PipeAux.begin.code 0]
  | .pipeEnd => [commandWord .pipe .aux 0 PipeAux.finish.code 0]
  | .pipeDeinit => [commandWord .pipe .aux 0 PipeAux.deinit.code 0]
  | .pipeSave => [commandWord .pipe .aux 0 PipeAux.save.code 0]
  | .pipeRestore n ws => commandWord .pipe .aux 0 PipeAux.restore.code 0 :: n :: ws
  | .rd u ch idx reg => [commandWord u .rd ch idx reg]
  | .wr u ch idx reg v => [commandWord u .wr ch idx reg, v]

end Sys2Proof
end

