-- ==== Sys2Proof/Machine/Fetch.lean ====
section
/-! DEFINITION. Taking a command from the port (rules R23, R110, R118): the block has no program counter, so the next command is whatever transaction the host's words begin with. Log entry 4. -/

namespace Sys2Proof.Machine

/-- The transaction at the front of the words on the port. -/
def State.fetch (s : State) : Except DecodeError (Instr × List Word) := decode s.params s.port.rx

/-- The state with other words waiting on the port. -/
def State.withRx (s : State) (ws : List Word) : State := { s with port := { s.port with rx := ws } }

/-- An illegal command word with its `n` operand words is consumed, and the command ends with `Illegal` and no other
effect (rules R118, R425). -/
def State.dropIllegal (s : State) (n : Nat) : State := (s.withRx (s.port.rx.drop (n + 1))).raise .illegal

/-- The words of an instruction given as bits, alone on the port. -/
def State.placeWords (s : State) (nbits w : Nat) : State := s.withRx (tableWords s.params nbits w)

end Sys2Proof.Machine
end

