-- ==== Sys2Proof/Machine/Step.lean ====
section
/-! DEFINITION. One step: take one transaction from the port and carry it out (rules R23, R93, R110, R118). -/

namespace Sys2Proof.Machine

/-- One step of the block. With no whole transaction on the port the block waits (log entry 4); an illegal command
word ends with `Illegal`; a command runs with its words taken off the port. -/
def step (s : State) : Host.Outcome State Fault Refusal :=
  match s.fetch with
  | .ok (i, rest) => exec i (s.withRx rest)
  | .error (.illegal _ n) => .next (s.dropIllegal n)
  | .error .noCommand => .next s
  | .error .incomplete => .next s

/-- The state with the instruction whose bits are `w` alone on the port, so that the next step runs it (log entry 4).
-/
def State.withFetchWord (s : State) (nbits w : Nat) : State := s.placeWords nbits w

end Sys2Proof.Machine
end

