-- ==== Sys2Proof/Safety.lean ====
section
/-! DEFINITION. What a well-behaved state is: the predicates on states in whose terms the statements are written. -/

namespace Sys2Proof.Machine

/-! ### Ring memories (rules R80, R83, R85) -/

/-- A memory is in canonical form, and while its unit is active the cursor names one of its cells. -/
def ringOk (active : Bool) (m : Memory) (cursor : Word) : Prop :=
  m.wf = true ∧ (active = true → cursor.toNat < m.cap)

/-- The memories of a channel of RVS: each as long as its length register says (rule R81). -/
def rvsRingsOk (active : Bool) (clen alen : List Word) (c : RvsS) : Prop :=
  (∀ k ∈ c.combs, ringOk active k.mem k.idx) ∧ (∀ a ∈ c.aps, ringOk active a.mem a.idx) ∧
  (active = true → c.combs.map (fun k => k.mem.cap) = clen.map BitVec.toNat) ∧
  (active = true → c.aps.map (fun a => a.mem.cap) = alen.map BitVec.toNat)

/-- The memories of a channel of FDN: one cursor for eight lines of one length (rule R81). -/
def fdnRingsOk (active : Bool) (c : FdnS) : Prop :=
  (∀ m ∈ c.lb, ringOk active m c.wpos) ∧ (∀ m ∈ c.lb, m.cap = (c.lb.headD Memory.unsized).cap)

/-- Every ring memory of the block is canonical, with its cursor inside it (rules R83, R85). -/
def State.ringsOk (s : State) : Prop :=
  (∀ c ∈ s.pitch.ch, ringOk s.pitch.life.active c.mem c.wpos) ∧
  (∀ c ∈ s.dly.ch, ringOk s.dly.life.active c.mem c.wpos) ∧
  (∀ c ∈ s.rvs.ch, rvsRingsOk s.rvs.life.active s.rvs.clen s.rvs.alen c) ∧
  (∀ c ∈ s.fdn.ch, fdnRingsOk s.fdn.life.active c) ∧
  (∀ c ∈ s.lim.ch, ringOk s.lim.life.active c.lb c.wpos)

/-! ### Lifecycle (rules R33, R386) -/

/-- Every unit other than PIPE, every instance, is active. -/
def State.unitsActive (s : State) : Prop :=
  s.env.life.active = true ∧ (∀ u ∈ s.bq, u.life.active = true) ∧ (∀ u ∈ s.svf, u.life.active = true) ∧
  s.gate.life.active = true ∧ s.agc.life.active = true ∧ s.deess.life.active = true ∧
  s.comp.life.active = true ∧ s.fet.life.active = true ∧ s.sat.life.active = true ∧
  s.pitch.life.active = true ∧ s.dly.life.active = true ∧ s.rvs.life.active = true ∧
  s.fdn.life.active = true ∧ s.wid.life.active = true ∧ s.os.life.active = true ∧
  s.lim.life.active = true ∧ s.xn.life.active = true

/-- `PIPE.ACTIVE` implies every unit's `ACTIVE` (rule R386). -/
def State.pipeImpliesUnits (s : State) : Prop := s.pipe.life.active = true → s.unitsActive

/-- Every `CONFIGURED` bit of `s` is still set in `t` (rule R33: never cleared). -/
def State.configuredWithin (s t : State) : Prop :=
  (s.env.life.configured = true → t.env.life.configured = true) ∧
  (∀ i : Nat, ((s.bq.map (fun u => u.life.configured)).getD i false = true →
    (t.bq.map (fun u => u.life.configured)).getD i false = true)) ∧
  (∀ i : Nat, ((s.svf.map (fun u => u.life.configured)).getD i false = true →
    (t.svf.map (fun u => u.life.configured)).getD i false = true)) ∧
  (s.gate.life.configured = true → t.gate.life.configured = true) ∧
  (s.agc.life.configured = true → t.agc.life.configured = true) ∧
  (s.deess.life.configured = true → t.deess.life.configured = true) ∧
  (s.comp.life.configured = true → t.comp.life.configured = true) ∧
  (s.fet.life.configured = true → t.fet.life.configured = true) ∧
  (s.sat.life.configured = true → t.sat.life.configured = true) ∧
  (s.pitch.life.configured = true → t.pitch.life.configured = true) ∧
  (s.dly.life.configured = true → t.dly.life.configured = true) ∧
  (s.rvs.life.configured = true → t.rvs.life.configured = true) ∧
  (s.fdn.life.configured = true → t.fdn.life.configured = true) ∧
  (s.wid.life.configured = true → t.wid.life.configured = true) ∧
  (s.os.life.configured = true → t.os.life.configured = true) ∧
  (s.lim.life.configured = true → t.lim.life.configured = true) ∧
  (s.xn.life.configured = true → t.xn.life.configured = true) ∧
  (s.pipe.life.configured = true → t.pipe.life.configured = true)

/-! ### Registers -/

/-- Bit 0 and bits 7 to 31 of `PIPE.STATUS` read 0 (rule R69). -/
def State.statusLegal (s : State) : Prop := s.pipe.status &&& 0xFFFFFF81 = 0

/-- While PIPE is configured its P registers hold values that `PIPE.CFG` accepts (rule R387). -/
def State.pipeLegal (s : State) : Prop := s.pipe.life.configured = true → pipeCfgOk s.params s.pipe.P = true

/-- As many instances and copies as rules R31 and R32 say: NEQ instances of BQ and SVF, NCH copies of every
per-channel register, one pair of WID for every two channels, and the arrays at their lengths (rules R49, R50, R52).
-/
def State.copiesOk (s : State) : Prop :=
  s.env.envelope.length = s.params.nch ∧
  s.bq.length = s.params.neq ∧ (∀ u ∈ s.bq, u.taps.length = s.params.nch) ∧
  s.svf.length = s.params.neq ∧ (∀ u ∈ s.svf, u.ch.length = s.params.nch) ∧
  s.gate.ch.length = s.params.nch ∧ s.agc.ch.length = s.params.nch ∧ s.deess.ch.length = s.params.nch ∧
  s.comp.gain.length = s.params.nch ∧ s.fet.envelope.length = s.params.nch ∧ s.sat.ch.length = s.params.nch ∧
  s.pitch.ch.length = s.params.nch ∧ s.dly.ch.length = s.params.nch ∧
  s.rvs.ch.length = s.params.nch ∧ s.rvs.clen.length = 8 ∧ s.rvs.alen.length = 4 ∧
  (∀ c ∈ s.rvs.ch, c.combs.length = 8 ∧ c.aps.length = 4) ∧
  s.fdn.ch.length = s.params.nch ∧ s.fdn.C.len.length = 8 ∧
  (∀ c ∈ s.fdn.ch, c.lp.length = 8 ∧ c.lb.length = 8) ∧
  s.wid.pairs.length = s.params.nch / 2 ∧
  s.os.ch.length = s.params.nch ∧ (∀ c ∈ s.os.ch, c.uph.length = 16 ∧ c.dnh.length = 64) ∧
  s.lim.ch.length = s.params.nch ∧ s.xn.lps.length = s.params.nch

/-! ### What a command may leave unchanged -/

/-- The state with another record of PIPE status and port, everything else as it is: what a command that raises leaves
(rule R425). -/
def State.sameUnits (s t : State) : Prop :=
  t.params = s.params ∧ t.env = s.env ∧ t.bq = s.bq ∧ t.svf = s.svf ∧ t.gate = s.gate ∧ t.agc = s.agc ∧
  t.deess = s.deess ∧ t.comp = s.comp ∧ t.fet = s.fet ∧ t.sat = s.sat ∧ t.pitch = s.pitch ∧ t.dly = s.dly ∧
  t.rvs = s.rvs ∧ t.fdn = s.fdn ∧ t.wid = s.wid ∧ t.os = s.os ∧ t.lim = s.lim ∧ t.xn = s.xn

/-- The latched mud band is none, or a band that exists (rule R66). -/
def State.latchedBandOk (s : State) : Prop :=
  s.pipe.L.eqMudBand = noMudBand ∨ s.pipe.L.eqMudBand.toNat < s.params.neq

/-! ### What comes before a PROC (rules R118, R424) -/

/-- The command `i`, whose fields are legal or not and whose unit or instance has the lifecycle `l`, is turned away in
the order of rule R423: `Illegal`, then `Inactive`, then `Unconfigured`, each with no other effect. -/
def State.turnsAway (s : State) (i : Instr) (legal : Bool) (l : Life) : Prop :=
  (legal = false → exec i s = .next (s.raise .illegal)) ∧
  (legal = true → l.active = false → exec i s = .next (s.raise .inactive)) ∧
  (legal = true → l.active = true → l.configured = false → exec i s = .next (s.raise .unconfigured))

/-- The command word `base | c << 16 | i << 8`, as the rules of the commands write their encodings (rule R111). -/
def rowWord (base : Word) (ch : BitVec 4) (idx : BitVec 8) : Word :=
  base ||| (ch.setWidth 32 <<< 16) ||| (idx.setWidth 32 <<< 8)

/-! ### The ring space (rule R81) -/

/-- Every ring memory of the block, unit by unit and channel by channel. -/
def State.rings (s : State) : List Memory :=
  s.pitch.ch.map (fun c => c.mem) ++ s.dly.ch.map (fun c => c.mem) ++
  s.rvs.ch.flatMap (fun c => c.combs.map (fun k => k.mem) ++ c.aps.map (fun a => a.mem)) ++
  s.fdn.ch.flatMap (fun c => c.lb) ++ s.lim.ch.map (fun c => c.lb)

/-- A ring of which one sample after another is written at the cursor, which moves on after each (rule R85). -/
def ringRun : Memory → Word → List Word → Memory × Word
  | m, w, [] => (m, w)
  | m, w, x :: xs => ringRun (m.write w.toNat x) (nextCursor w m.cap) xs

/-- A channel of GATE after one sample after another (rule R204). -/
def gateRun (p : Ctx) (c : GateC) : GateS → List F32 → GateS
  | s, [] => s
  | s, x :: xs => gateRun p c (gateStep p c s x).1 xs

/-! ### The register space (rules R33, R88) -/

/-- Copy `c` of the registers of unit `u`, instance `i`, is what `regs` lists in register order, each with its class and
its word; the unit has no other register but `UFLAGS` and `FS_EFF`, which read its lifecycle `life` and `snap`. -/
def State.registerFile (s : State) (u : UnitId) (c i : Nat) (life : Life) (snap : Bool) (regs : List (RegClass × Word)) :
    Prop :=
  (∀ (r : Nat) (cls : RegClass) (w : Word), regs[r]? = some (cls, w) →
    regClass u r = some cls ∧ (s.access u c i r).value = w) ∧
  (∀ r, regs.length ≤ r → r ≠ 0xF0 → r ≠ 0xF1 → regClass u r = none) ∧
  (∀ r, (s.access u c i r).life = life) ∧
  regClass u 0xF0 = some .flags ∧ regClass u 0xF1 = some .rate ∧
  (s.access u c i 0xF0).value =
    (if life.active then 1 else 0) ||| (if life.configured then 2 else 0) ||| (if snap then 4 else 0) ∧
  (s.access u c i 0xF1).value = life.fsEff

/-! ### Rounding (rule R13) -/

/-- `r` is the binary32 value with the sign `neg` nearest to the exact magnitude `n / d`, counted in `2^-149`, at a tie
the one whose last bit is 0: an infinity exactly from half a unit above the largest finite value on, and otherwise a
finite value such that no other is nearer. -/
def nearestTo (neg : Bool) (n d : Nat) (r : F32) : Prop :=
  F32.sign r = neg ∧ F32.isNaN r = false ∧
  (F32.isInf r = true ↔ (2 ^ 25 - 1) * 2 ^ 252 * d ≤ n) ∧
  (F32.isInf r = false → ∀ v : F32, F32.isFinite v = true →
    ((F32.units r * d : Int) - n).natAbs ≤ ((F32.units v * d : Int) - n).natAbs ∧
    (((F32.units r * d : Int) - n).natAbs = ((F32.units v * d : Int) - n).natAbs → F32.mag v ≠ F32.mag r →
      F32.mag r % 2 = 0))

/-- `r` is what an operation returns whose exact result is `± n / d`: the nearest value, a subnormal one replaced by a
zero of its sign where `ftz` is set. -/
def roundsTo (ftz neg : Bool) (n d : Nat) (r : F32) : Prop :=
  ∃ w : F32, nearestTo neg n d w ∧ r = if ftz = true ∧ F32.mag w < 0x800000 then F32.ofParts neg 0 else w

/-- A quiet NaN: a NaN with the first bit of its fraction set. -/
def quietNaN (r : F32) : Prop := F32.isNaN r = true ∧ r.getLsbD 22 = true

end Sys2Proof.Machine
end

