-- ==== Sys2Proof/Certificates/Slice0/Obligations.lean ====
section
/-! DEFINITION. The statements for the provers, each one a `Prop` under a name that says what it states. The binary32 operations stand as `p.add`, `p.sub`, `p.mul` and `p.div` with `p = s.ctx`, the build and the free-value counter of the state (rule R13, log entry 6). `State.complete` is the successful end of a command (result words and status `OK` on the port, nothing else), `State.raise` the other end (rule R425). -/

open Sys2Proof Sys2Proof.Machine

/-! ### Encoding and the step (rules R110 to R122) -/

/-- Decoding what the encoder writes gives the command back, with the words behind it, for every command of the build
and every operand (rules R110, R111, R116). -/
def Obligations.DecodeOfEncodeIsTheCommand : Prop :=
  ∀ (p : Params) (i : Instr) (rest : List Word), i.wellFormed p = true → decode p (encode i ++ rest) = .ok (i, rest)

/-- Whatever the decoder accepts is, word for word, what the encoder writes for it: no bit is ignored (rules R111,
R117). -/
def Obligations.EncodeOfDecodedIsTheWords : Prop :=
  ∀ (p : Params) (ws rest : List Word) (i : Instr), decode p ws = .ok (i, rest) → encode i ++ rest = ws

/-- The five worked encodings of rule R122, word for word, decoded and encoded. -/
def Obligations.WorkedEncodingsOfTheSpec : Prop :=
  ∀ (rest : List Word),
    (∀ p : Params,
      decode p ([0x00210000, 0x3F000000] ++ rest) = .ok (.envProc 1 0x3F000000, rest) ∧
      decode p ([0x01100202, 0x447A0000, 0x3F34FDF4, 0x40400000] ++ rest) =
        .ok (.bqCfg 2 .peaking 0x447A0000 0x3F34FDF4 0x40400000, rest) ∧
      decode p ([0x11300100] ++ rest) = .ok (.pipeEnd, rest) ∧
      decode p ([0x0341000D] ++ rest) = .ok (.rd .gate 1 0 13, rest) ∧
      decode p ([0x00500002, 0x3F000000] ++ rest) = .ok (.wr .env 0 0 2 0x3F000000, rest)) ∧
    encode (.envProc 1 0x3F000000) = [0x00210000, 0x3F000000] ∧
    encode (.bqCfg 2 .peaking 0x447A0000 0x3F34FDF4 0x40400000) = [0x01100202, 0x447A0000, 0x3F34FDF4, 0x40400000] ∧
    encode .pipeEnd = [0x11300100] ∧
    encode (.rd .gate 1 0 13) = [0x0341000D] ∧
    encode (.wr .env 0 0 2 0x3F000000) = [0x00500002, 0x3F000000]

/-- When the words on the port begin with a command, a step takes its words off the port and runs it; nothing else stands
around `exec` (rules R23, R93, R110). With no command word on the port, or with operand words of the transaction still
to come, a step changes nothing: the model's way to wait, a choice of the model (log entry 4; rule R453: the block waits
for the next command). -/
def Obligations.StepRunsTheDecodedCommand : Prop :=
  ∀ (s : State),
    (∀ i rest, decode s.params s.port.rx = .ok (i, rest) → step s = exec i { s with port := ⟨rest, s.port.tx⟩ }) ∧
    (∀ (i : Instr) rest, i.wellFormed s.params = true → s.port.rx = encode i ++ rest →
      step s = exec i { s with port := ⟨rest, s.port.tx⟩ }) ∧
    (s.port.rx = [] → step s = .next s) ∧
    (∀ w rest n, s.port.rx = w :: rest → operandCount s.params.nch w rest = some n → rest.length < n →
      step s = .next s) ∧
    (∀ w rest, s.port.rx = w :: rest → operandCount s.params.nch w rest = none → step s = .next s)

/-- A command word whose UNIT is 0x12..0xFF or whose OP is 6..15 is dropped alone and ends with `Illegal`; a PIPE AUX
word with IDX 5..255 too; any other command word that no row takes is dropped with the operand words of its row. The
only effects are bit 1 of `PIPE.STATUS` and the status word 1 (rules R118, R421, R425). How many operand words such a word
takes with it is the model's reading (log entry 16): 3 for `BQ.CFG` and `SVF.CFG`, where Part D of the test vectors prints
4; 1 + n for a `PIPE.RESTORE` with an illegal field; and none for a reserved UNIT, with OP 5 too. -/
def Obligations.IllegalCommandWordsAreDropped : Prop :=
  ∀ (s : State) (w : Word) (rest : List Word), s.port.rx = w :: rest →
    (0x12 ≤ (w.extractLsb' 24 8).toNat ∨ 6 ≤ (w.extractLsb' 20 4).toNat ∨
        (w.extractLsb' 20 12 = 0x113 ∧ 5 ≤ (w.extractLsb' 8 8).toNat) →
      step s = .next { s with
        port := ⟨rest, s.port.tx ++ [1]⟩, pipe := { s.pipe with status := s.pipe.status ||| 2 } }) ∧
    (∀ e n, decode s.params (w :: rest) = .error (.illegal e n) →
      n ≤ rest.length ∧ operandCount s.params.nch w rest = some n ∧
      step s = .next { s with
        port := ⟨rest.drop n, s.port.tx ++ [1]⟩, pipe := { s.pipe with status := s.pipe.status ||| 2 } })

/-- A command that breaks a field rule of the build (its channel, pair, band or register address does not exist, or a
frame has not NCH words) ends with `Illegal` before anything else is looked at, whatever the state (rules R118, R423).
`PIPE.RESTORE`, whose word count is its first operand, has no such field. Two cases are the model's own and not the
letter of rule R118: RD and WR of a WID S register at the last channel of an odd NCH, `Illegal` by log entry 15; and a
frame that has not NCH words, which the port never delivers, since rule R110 always takes NCH words for it. -/
def Obligations.FieldRulesComeFirst : Prop :=
  ∀ (s : State) (i : Instr), i.wellFormed s.params = false → (∀ n ws, i ≠ .pipeRestore n ws) →
    exec i s = .next (s.raise .illegal)

/-! ### Every command (rules R33, R69, R83, R85, R386, R387, R425, R451) -/

/-- Every command completes or raises. If it raises, the only effects are the bit of `PIPE.STATUS` and the status word
on the port. If it completes, the port has its result words and the word `OK`, the build is the same, and `PIPE.STATUS`
is the same but for a WR to it (rules R420, R421, R425). -/
def Obligations.EveryCommandCompletesOrRaises : Prop :=
  ∀ (i : Instr) (s : State),
    (∃ (t : State) (results : List Word), exec i s = .next (t.complete results) ∧
      t.params = s.params ∧ t.port = s.port ∧ t.free = s.free ∧
      (t.pipe.status = s.pipe.status ∨
        ∃ v, i = .wr .pipe 0 0 14 v ∧ t.pipe.status = s.pipe.status &&& ~~~v)) ∨
    (∃ r : Raised, exec i s = .next { s with
      port := ⟨s.port.rx, s.port.tx ++ [BitVec.ofNat 32 r.code]⟩
      pipe := { s.pipe with status := s.pipe.status ||| 1#32 <<< r.code } })

/-- `PIPE.STATUS`: bit `k` is set exactly by a command that ends with status code `k` (1..6), the other bits read 0 and
stay 0, WR clears exactly the ones written, it is 0 at power-on, RD and WR of it never need a lifecycle flag, and no RST
and no DEINIT changes it (rule R69). -/
def Obligations.StatusRegisterIsSticky : Prop :=
  (∀ r : Raised, 1 ≤ r.code ∧ r.code ≤ 6) ∧
  (∀ (i : Instr) (s t : State) (r : Raised), exec i s = .next t →
    t.port.tx = s.port.tx ++ [BitVec.ofNat 32 r.code] → t.pipe.status = s.pipe.status ||| 1#32 <<< r.code) ∧
  (∀ (s t : State), s.pipe.status &&& 0xFFFFFF81 = 0 → step s = .next t → t.pipe.status &&& 0xFFFFFF81 = 0) ∧
  (∀ (s : State) (v : Word), exec (.wr .pipe 0 0 14 v) s =
    .next (State.complete { s with pipe := { s.pipe with status := s.pipe.status &&& ~~~v } } [])) ∧
  (∀ s : State, exec (.rd .pipe 0 0 14) s = .next (s.complete [s.pipe.status])) ∧
  (∀ p : Params, (State.powerOn p).pipe.status = 0) ∧
  (∀ (i : Instr) (s t : State) (results : List Word), (∀ v, i ≠ .wr .pipe 0 0 14 v) →
    exec i s = .next (t.complete results) → t.pipe.status = s.pipe.status)

/-- At power-on, whatever the build: `UFLAGS` reads 0 for every unit and instance but OS, whose `CONFIGURED` bit is
hard-wired, `PIPE.STATUS` reads 0, and no other register can be read: RD ends with `Unconfigured` for a P register and
with `Inactive` for every other (rules R33, R34, R451). -/
def Obligations.PowerOnRegistersHoldNoValue : Prop :=
  ∀ (p : Params) (u : UnitId) (c i r : Nat), addressOk p u c i r = true →
    (State.powerOn p).readReg u c i r =
      if r = 0xF0 then .ok (if u = .os then 2 else 0)
      else if u = .pipe ∧ r = 14 then .ok 0
      else if regClass u r = some .p then .error .unconfigured
      else .error .inactive

/-- Every step keeps the ring memories canonical, as long as their length registers say, with every cursor of an active
unit inside its memory (rules R80, R81, R83, R85). -/
def Obligations.StepKeepsRings : Prop :=
  ∀ s t : State, s.ringsOk → step s = .next t → t.ringsOk

/-- Every step keeps `PIPE.ACTIVE` implying every unit's `ACTIVE` (rule R386), and keeps the Pipeline Configuration one
that `PIPE.CFG` accepts, whether CFG, WR or RESTORE writes it (rules R387, R401, R405). -/
def Obligations.StepKeepsThePipelineInvariants : Prop :=
  ∀ s t : State, step s = .next t →
    (s.pipeImpliesUnits → t.pipeImpliesUnits) ∧ (s.pipeLegal → t.pipeLegal)

/-- Every step keeps the number of instances and of per-channel copies (rules R31, R32, R49, R50, R52). -/
def Obligations.StepKeepsInstancesAndCopies : Prop :=
  ∀ s t : State, s.copiesOk → step s = .next t → t.copiesOk

/-- No step clears a `CONFIGURED` bit, of any unit or instance, on a block with its instances (rule R33). -/
def Obligations.ConfiguredIsNeverCleared : Prop :=
  ∀ s t : State, s.copiesOk → step s = .next t → s.configuredWithin t

/-- The reset state satisfies every invariant that a step keeps. -/
def Obligations.ResetSatisfiesTheInvariants : Prop :=
  State.reset.ringsOk ∧ State.reset.pipeImpliesUnits ∧ State.reset.copiesOk ∧ State.reset.pipeLegal ∧
  State.reset.statusLegal ∧ State.reset.params.wf = true

/-! ### RD and WR (rules R71, R400, R401) -/

/-- RD: `Illegal` where the address is no register, then the lifecycle checks of the register's class, else the
register's word; the state does not change (rules R91, R400). Then which addresses are registers (rule R118; that a WID
S register needs a whole pair, so that an odd NCH leaves its last channel none, is the model's reading, log entry 15),
which class needs which flag, and the register files: for every unit, register by register, its class and the field of
the state that it reads (rules R33, R37 to R54, R66). -/
def Obligations.RdReadsOneRegister : Prop :=
  (∀ (s : State) (u : UnitId) (ch : BitVec 4) (idx reg : BitVec 8) (cls : RegClass),
      encode (.rd u ch idx reg) =
        [rowWord ((u.code.setWidth 32 <<< 24) ||| 0x00400000) ch idx ||| reg.setWidth 32] ∧
      (addressOk s.params u ch.toNat idx.toNat reg.toNat = false → exec (.rd u ch idx reg) s = .next (s.raise .illegal)) ∧
      (addressOk s.params u ch.toNat idx.toNat reg.toNat = true → regClass u reg.toNat = some cls →
        let a := s.access u ch.toNat idx.toNat reg.toNat
        (cls.needsActive = true → a.life.active = false → exec (.rd u ch idx reg) s = .next (s.raise .inactive)) ∧
        ((cls.needsActive = true → a.life.active = true) → cls.needsConfigured = true → a.life.configured = false →
          exec (.rd u ch idx reg) s = .next (s.raise .unconfigured)) ∧
        ((cls.needsActive = true → a.life.active = true) → (cls.needsConfigured = true → a.life.configured = true) →
          exec (.rd u ch idx reg) s = .next (s.complete [a.value])))) ∧
  (∀ (p : Params) (u : UnitId) (c i r : Nat), addressOk p u c i r = true ↔
    ∃ cls, regClass u r = some cls ∧ i < (if u = .bq ∨ u = .svf then p.neq else 1) ∧
      (if cls = .s then (if u = .wid then c % 2 = 0 ∧ c + 1 < p.nch else c < p.nch) else c = 0)) ∧
  (∀ cls : RegClass,
    (cls.needsActive = true ↔ cls ∈ [RegClass.c, .tone, .k, .s, .g, .rate]) ∧
    (cls.needsConfigured = true ↔ cls ∈ [RegClass.p, .c])) ∧
  ([BqType.lowShelf, .highShelf, .peaking, .lowPass, .highPass].map bqTypeWord = [0, 1, 2, 3, 4] ∧
    [SvfType.highPass, .peaking, .lowPass].map svfTypeWord = [0, 1, 2] ∧
    [SatType.cubic, .tanh].map satTypeWord = [0, 1] ∧
    [GateState.closed, .opened].map gateStateWord = [0, 1]) ∧
  (∀ (s : State) (c i : Nat),
    let flag := fun b : Bool => if b then (1 : Word) else 0
    let z : BqTaps := ⟨0, 0, 0, 0⟩
    s.registerFile .env c i s.env.life false
      [(.p, s.env.P.tAtt), (.p, s.env.P.tRel), (.c, s.env.C.a), (.c, s.env.C.r), (.s, s.env.envelope.getD c 0)] ∧
    (let u := s.bqAt i
     let t := u.taps.getD c z
     s.registerFile .bq c i u.life false
      [(.p, bqTypeWord u.P.type), (.p, u.P.freq), (.p, u.P.q), (.p, u.P.gainDb), (.c, u.C.b0), (.c, u.C.b1),
       (.c, u.C.b2), (.c, u.C.a1), (.c, u.C.a2), (.s, t.x1), (.s, t.x2), (.s, t.y1), (.s, t.y2), (.k, u.gainOffDb)]) ∧
    (let u := s.svfAt i
     let t := u.ch.getD c ⟨0, 0⟩
     s.registerFile .svf c i u.life false
      [(.p, svfTypeWord u.P.type), (.p, u.P.freq), (.p, u.P.q), (.p, u.P.gainDb), (.c, u.C.g), (.c, u.C.r), (.c, u.C.d),
       (.c, u.C.ak), (.s, t.s1), (.s, t.s2), (.k, u.gainOffDb)]) ∧
    (let P := s.gate.P
     let C := s.gate.C
     let t := s.gate.ch.getD c ⟨F32.zero, .closed, 0, F32.one⟩
     s.registerFile .gate c i s.gate.life false
      [(.p, P.threshDb), (.p, P.rangeDb), (.p, P.attackMs), (.p, P.holdMs), (.p, P.releaseMs), (.p, P.hystDb),
       (.c, C.openTh), (.c, C.closeTh), (.c, C.rangeF), (.c, C.a), (.c, C.r), (.c, C.holdSamples), (.s, t.envelope),
       (.s, gateStateWord t.state), (.s, t.holdCnt), (.s, t.gain)]) ∧
    (let P := s.agc.P
     let K := s.agc.K
     let t := s.agc.ch.getD c ⟨F32.zero, F32.one⟩
     s.registerFile .agc c i s.agc.life false
      [(.p, P.targetDb), (.p, P.rangeDb), (.p, P.attackMs), (.p, P.releaseMs), (.k, flag K.extMode), (.k, K.extGainDb),
       (.c, s.agc.C.a), (.c, s.agc.C.r), (.k, K.extTgt), (.s, t.envelope), (.s, t.sgain)]) ∧
    (let P := s.deess.P
     let C := s.deess.C
     let t := s.deess.ch.getD c ⟨F32.zero, F32.zero, F32.zero⟩
     s.registerFile .deess c i s.deess.life false
      [(.p, P.freq), (.p, P.threshDb), (.p, P.ratio), (.p, P.attackMs), (.p, P.releaseMs), (.p, P.maxRedDb),
       (.c, C.thLin), (.c, C.expo), (.c, C.floorG), (.c, C.a), (.c, C.r), (.c, C.xg), (.c, C.xr), (.c, C.xd), (.s, t.xs1),
       (.s, t.xs2), (.s, t.envelope)]) ∧
    (let P := s.comp.P
     let C := s.comp.C
     s.registerFile .comp c i s.comp.life false
      [(.p, P.threshDb), (.p, P.ratio), (.p, P.kneeDb), (.p, P.attackMs), (.p, P.releaseMs), (.p, P.makeupDb),
       (.c, C.slope), (.c, C.a), (.c, C.r), (.c, C.makeupLin), (.s, s.comp.gain.getD c F32.one)]) ∧
    (let P := s.fet.P
     let C := s.fet.C
     s.registerFile .fet c i s.fet.life false
      [(.p, P.inputDb), (.p, P.ratio), (.p, P.attackMs), (.p, P.releaseMs), (.p, flag P.autoMakeup),
       (.k, s.fet.K.threshOffsetDb), (.c, C.drive), (.k, s.fet.K.thLin), (.c, C.expo), (.c, C.makeup), (.c, C.a), (.c, C.r),
       (.s, s.fet.envelope.getD c F32.zero)]) ∧
    (let A := s.sat.C.pre
     let B := s.sat.C.post
     let t := s.sat.ch.getD c ⟨z, z⟩
     s.registerFile .sat c i s.sat.life false
      [(.p, s.sat.P.drive), (.p, satTypeWord s.sat.P.type), (.k, s.sat.driveScale),
       (.tone, A.b0), (.tone, A.b1), (.tone, A.b2), (.tone, A.a1), (.tone, A.a2),
       (.tone, B.b0), (.tone, B.b1), (.tone, B.b2), (.tone, B.a1), (.tone, B.a2),
       (.s, t.pre.x1), (.s, t.pre.x2), (.s, t.pre.y1), (.s, t.pre.y2),
       (.s, t.post.x1), (.s, t.post.x2), (.s, t.post.y1), (.s, t.post.y2)]) ∧
    (let C := s.pitch.C
     let t := s.pitch.ch.getD c ⟨0, 0, .unsized⟩
     s.registerFile .pitch c i s.pitch.life false
      [(.p, s.pitch.P.amount), (.p, s.pitch.P.windowMs), (.c, C.ratio), (.c, C.step), (.c, C.win), (.s, t.wpos),
       (.s, t.phase)]) ∧
    (let P := s.dly.P
     let t := s.dly.ch.getD c ⟨0, 0, .unsized⟩
     s.registerFile .dly c i s.dly.life s.dly.snap
      [(.p, P.timeMs), (.p, P.feedback), (.p, P.mix), (.c, s.dly.target), (.s, t.current), (.s, t.wpos)]) ∧
    (let P := s.rvs.P
     let t := s.rvs.ch.getD c ⟨[], []⟩
     let comb := fun k : Nat => t.combs.getD k ⟨0, 0, .unsized⟩
     s.registerFile .rvs c i s.rvs.life false
      ([(.p, P.room), (.p, P.damp), (.p, P.mix)] ++
       (List.range 8).map (fun k => (.g, s.rvs.clen.getD k 0)) ++
       (List.range 4).map (fun j => (.g, s.rvs.alen.getD j 0)) ++
       (List.range 8).map (fun k => (.s, (comb k).idx)) ++
       (List.range 8).map (fun k => (.s, (comb k).filt)) ++
       (List.range 4).map (fun j => (.s, (t.aps.getD j ⟨0, .unsized⟩).idx)))) ∧
    (let P := s.fdn.P
     let t := s.fdn.ch.getD c ⟨0, [], []⟩
     s.registerFile .fdn c i s.fdn.life false
      ([(.p, P.size), (.p, P.damp), (.p, P.mix), (.c, s.fdn.C.fbgain)] ++
       (List.range 8).map (fun k => (.c, s.fdn.C.len.getD k 0)) ++ [(.s, t.wpos)] ++
       (List.range 8).map (fun k => (.s, t.lp.getD k 0)))) ∧
    (let P := s.wid.P
     let t := s.wid.pairs.getD (c / 2) ⟨F32.zero, F32.zero⟩
     s.registerFile .wid c i s.wid.life false
      [(.p, P.width), (.p, P.bassFreq), (.p, flag P.monoBass), (.c, s.wid.k), (.s, t.lpm), (.s, t.lps)]) ∧
    (let t := s.os.ch.getD c ⟨List.replicate 16 F32.zero, List.replicate 64 F32.zero⟩
     s.registerFile .os c i s.os.life false
      ((List.range 16).map (fun k => (.s, t.uph.getD k 0)) ++ (List.range 64).map (fun k => (.s, t.dnh.getD k 0)))) ∧
    (let P := s.lim.P
     let C := s.lim.C
     let t := s.lim.ch.getD c ⟨0, 0, .unsized⟩
     s.registerFile .lim c i s.lim.life false
      [(.p, P.ceilingDb), (.p, P.releaseMs), (.p, P.lookaheadMs), (.c, C.ceilLin), (.c, C.rel), (.c, C.la), (.s, t.wpos),
       (.s, t.genv)]) ∧
    (let P := s.xn.P
     let k := s.xn.klp
     let t := s.xn.lps.getD c ⟨0, 0, 0, 0, 0, 0⟩
     let a := s.xn.acc
     let o := s.xn.out
     s.registerFile .xn c i s.xn.life false
      [(.p, P.targetRmsDb), (.p, P.fMudLo), (.p, P.fMudHi), (.p, P.fCoreLo), (.p, P.fCoreHi), (.p, P.fScrLo),
       (.p, P.fScrHi), (.c, k.v0), (.c, k.v1), (.c, k.v2), (.c, k.v3), (.c, k.v4), (.c, k.v5),
       (.s, t.v0), (.s, t.v1), (.s, t.v2), (.s, t.v3), (.s, t.v4), (.s, t.v5),
       (.g, a.n), (.g, a.sumsq), (.g, a.peak), (.g, a.sumsqMud), (.g, a.sumsqCore), (.g, a.sumsqScr),
       (.g, o.preGain), (.g, o.alGainDb), (.g, o.compThOffDb), (.g, o.eqMudCutDb), (.g, o.satDriveScale)]) ∧
    (let P := s.pipe.P
     let L := s.pipe.L
     s.registerFile .pipe c i s.pipe.life false
      [(.p, P.en), (.p, P.sel), (.p, P.eqKind), (.p, P.eqBandEn), (.p, P.eqMudBand),
       (.g, L.en), (.g, L.sel), (.g, L.eqKind), (.g, L.eqBandEn), (.g, L.eqMudBand),
       (.g, s.pipe.fs), (.g, flag s.pipe.osEn), (.g, flag s.pipe.inBlock), (.g, s.pipe.latency), (.status, s.pipe.status)]))

/-- WR: `Illegal` where the address is no register or WR may not write it, then the lifecycle checks of RD, then `Param`
where the register does not accept the word, else the one register is written (rule R401); and the list of the registers
that WR may not write (rule R71). That a WID S register needs a whole pair is the model's reading (log entry 15), and so
is that `L_*` and the other plain `u32` registers accept every word (log entry 17). -/
def Obligations.WrWritesOneRegister : Prop :=
  (∀ (u : UnitId) (r : Nat), readOnlyReg u r = true ↔
    r = 0xF0 ∨ r = 0xF1 ∨ (u = .fdn ∧ 4 ≤ r ∧ r ≤ 11) ∨ (u = .lim ∧ r = 5) ∨ (u = .rvs ∧ 3 ≤ r ∧ r ≤ 14) ∨
      (u = .pipe ∧ 10 ≤ r ∧ r ≤ 13)) ∧
  ∀ (s : State) (u : UnitId) (ch : BitVec 4) (idx reg : BitVec 8) (v : Word) (cls : RegClass),
    encode (.wr u ch idx reg v) =
      [rowWord ((u.code.setWidth 32 <<< 24) ||| 0x00500000) ch idx ||| reg.setWidth 32, v] ∧
    (addressOk s.params u ch.toNat idx.toNat reg.toNat = false ∨ readOnlyReg u reg.toNat = true →
      exec (.wr u ch idx reg v) s = .next (s.raise .illegal)) ∧
    (addressOk s.params u ch.toNat idx.toNat reg.toNat = true → readOnlyReg u reg.toNat = false →
      regClass u reg.toNat = some cls →
      let a := s.access u ch.toNat idx.toNat reg.toNat
      (cls.needsActive = true → a.life.active = false → exec (.wr u ch idx reg v) s = .next (s.raise .inactive)) ∧
      ((cls.needsActive = true → a.life.active = true) → cls.needsConfigured = true → a.life.configured = false →
        exec (.wr u ch idx reg v) s = .next (s.raise .unconfigured)) ∧
      ((cls.needsActive = true → a.life.active = true) → (cls.needsConfigured = true → a.life.configured = true) →
        (a.write v = none → exec (.wr u ch idx reg v) s = .next (s.raise .param)) ∧
        (∀ t, a.write v = some t → exec (.wr u ch idx reg v) s = .next (t.complete []))))

/-- What WR writes to a register is what RD reads there afterwards, for every register but `PIPE.STATUS` (rules R93,
R400, R401). -/
def Obligations.WrittenRegisterReadsBack : Prop :=
  ∀ (s t : State) (u : UnitId) (c i r : Nat) (v : Word), s.copiesOk → ¬(u = .pipe ∧ r = 14) →
    s.writeReg u c i r v = .ok t → t.readReg u c i r = .ok v

/-- WR writes the one register and recomputes nothing: every other register of the block reads as before, and every ring
memory is as before (rules R86, R401). -/
def Obligations.WrChangesNoOtherRegister : Prop :=
  ∀ (s t : State) (u u' : UnitId) (c c' i i' r r' : Nat) (v : Word), s.copiesOk →
    s.writeReg u c i r v = .ok t →
    t.rings = s.rings ∧ t.params = s.params ∧ t.port = s.port ∧
    (addressOk s.params u' c' i' r' = true → (u', c', i', r') ≠ (u, c, i, r) →
      t.readReg u' c' i' r' = s.readReg u' c' i' r')

/-- Which words a register accepts: a flag or enumerated register its listed values only, a cursor (`WPOS` of PITCH, DLY,
FDN and LIM, `CIDX` and `AIDX` of RVS) only values below its memory's capacity, a PIPE P register what `PIPE.CFG` accepts,
and every other register that WR may write, the `f32` ones among them, every word (rules R71, R387, R401). That the plain
`u32` registers, `L_*` among them, accept every word is the model's reading (log entry 17), and so is that `AIDX` past NAP
has a memory of one cell (log entry 19). -/
def Obligations.RegistersAcceptTheirValuesOnly : Prop :=
  ∀ (s : State) (c i : Nat) (v : Word),
    (∀ (u : UnitId) (r : Nat), (regClass u r).isSome = true → readOnlyReg u r = false →
      (u, r) ∉ [(UnitId.bq, 0), (.svf, 0), (.sat, 1), (.gate, 13), (.agc, 4), (.fet, 4), (.wid, 2), (.pitch, 5),
        (.dly, 5), (.lim, 6), (.fdn, 12), (.pipe, 0), (.pipe, 1), (.pipe, 2), (.pipe, 3), (.pipe, 4)] →
      ¬(u = .rvs ∧ (15 ≤ r ∧ r ≤ 22 ∨ 31 ≤ r)) → ((s.access u c i r).write v).isSome = true) ∧
    ((s.access .env c i 2).write v).isSome = true ∧
    ((s.access .bq c i 1).write v).isSome = true ∧
    ((s.access .comp c i 10).write v).isSome = true ∧
    (((s.access .bq c i 0).write v).isSome = true ↔ v.toNat ≤ 4) ∧
    (((s.access .svf c i 0).write v).isSome = true ↔ v.toNat ≤ 2) ∧
    (((s.access .sat c i 1).write v).isSome = true ↔ v.toNat ≤ 1) ∧
    (((s.access .gate c i 13).write v).isSome = true ↔ v.toNat ≤ 1) ∧
    (((s.access .agc c i 4).write v).isSome = true ↔ v.toNat ≤ 1) ∧
    (((s.access .fet c i 4).write v).isSome = true ↔ v.toNat ≤ 1) ∧
    (((s.access .wid c i 2).write v).isSome = true ↔ v.toNat ≤ 1) ∧
    (c < s.pitch.ch.length → (((s.access .pitch c i 5).write v).isSome = true ↔
      v.toNat < ((s.pitch.ch.map (fun k => k.mem.cap)).getD c 0))) ∧
    (c < s.dly.ch.length → (((s.access .dly c i 5).write v).isSome = true ↔
      v.toNat < ((s.dly.ch.map (fun k => k.mem.cap)).getD c 0))) ∧
    (c < s.lim.ch.length → (((s.access .lim c i 6).write v).isSome = true ↔
      v.toNat < ((s.lim.ch.map (fun k => k.lb.cap)).getD c 0))) ∧
    (c < s.fdn.ch.length → (((s.access .fdn c i 12).write v).isSome = true ↔
      v.toNat < ((s.fdn.ch.map (fun k => (k.lb.headD .unsized).cap)).getD c 0))) ∧
    (∀ j, j < 8 → c < s.rvs.ch.length → (((s.access .rvs c i (15 + j)).write v).isSome = true ↔
      v.toNat < ((s.rvs.ch.map (fun k => (k.combs.map (fun b => b.mem.cap)).getD j 0)).getD c 0))) ∧
    (∀ j, j < 4 → c < s.rvs.ch.length → (((s.access .rvs c i (31 + j)).write v).isSome = true ↔
      v.toNat < ((s.rvs.ch.map (fun k => (k.aps.map (fun a => a.mem.cap)).getD j 0)).getD c 0))) ∧
    (((s.access .pipe c i 0).write v).isSome = true ↔ v.toNat < 2 ^ 12) ∧
    (((s.access .pipe c i 1).write v).isSome = true ↔ v.toNat < 2 ^ 2) ∧
    (((s.access .pipe c i 2).write v).isSome = true ↔ (s.params.neq < 32 → v.toNat < 2 ^ s.params.neq)) ∧
    (((s.access .pipe c i 3).write v).isSome = true ↔ (s.params.neq < 32 → v.toNat < 2 ^ s.params.neq)) ∧
    (((s.access .pipe c i 4).write v).isSome = true ↔ v = 0xFFFFFFFF ∨ v.toNat < s.params.neq)

/-! ### RST, CFG and AUX of the units (rules R35, R36) -/

/-- The coefficient functions, as rules R156, R173 (the five types, each normalised by `a0`), R183, R203, R221, R229,
R239, R240, R282, R293, R312, R323 and R353 write them, and the one-pole coefficient of rules R272 and R373. The
formulas inside rule R173 are the spec's own decision (D17), not its source's. -/
def Obligations.CoefficientFormulas : Prop :=
  (∀ (p : Ctx) (fs freq q g : F32),
    let qe := F32.fmax q 0x3DCCCCCD
    let A := Num.pow F32.ten (p.div g F32.forty)
    let w0 := p.div (p.mul (p.mul F32.two F32.pi) freq) fs
    let cw := Num.cos w0
    let alpha := p.div (Num.sin w0) (p.mul F32.two qe)
    let Ap := p.add A F32.one
    let Am := p.sub A F32.one
    let beta := p.mul (p.mul F32.two (Num.sqrt A)) alpha
    let m2 : F32 := 0xC0000000
    let norm := fun (b0 b1 b2 a0 a1 a2 : F32) =>
      (⟨p.div b0 a0, p.div b1 a0, p.div b2 a0, p.div a1 a0, p.div a2 a0⟩ : BqC)
    let lp := p.div (p.sub F32.one cw) F32.two
    let hp := p.div (p.add F32.one cw) F32.two
    bqCoeffs p .peaking freq q g fs =
      norm (p.add F32.one (p.mul alpha A)) (p.mul m2 cw) (p.sub F32.one (p.mul alpha A))
        (p.add F32.one (p.div alpha A)) (p.mul m2 cw) (p.sub F32.one (p.div alpha A)) ∧
    bqCoeffs p .lowPass freq q g fs =
      norm lp (p.sub F32.one cw) lp (p.add F32.one alpha) (p.mul m2 cw) (p.sub F32.one alpha) ∧
    bqCoeffs p .highPass freq q g fs =
      norm hp (F32.neg (p.add F32.one cw)) hp (p.add F32.one alpha) (p.mul m2 cw) (p.sub F32.one alpha) ∧
    bqCoeffs p .lowShelf freq q g fs =
      norm (p.mul A (p.add (p.sub Ap (p.mul Am cw)) beta))
        (p.mul (p.mul F32.two A) (p.sub Am (p.mul Ap cw)))
        (p.mul A (p.sub (p.sub Ap (p.mul Am cw)) beta))
        (p.add (p.add Ap (p.mul Am cw)) beta)
        (p.mul m2 (p.add Am (p.mul Ap cw)))
        (p.sub (p.add Ap (p.mul Am cw)) beta) ∧
    bqCoeffs p .highShelf freq q g fs =
      norm (p.mul A (p.add (p.add Ap (p.mul Am cw)) beta))
        (p.mul (p.mul m2 A) (p.add Am (p.mul Ap cw)))
        (p.mul A (p.sub (p.add Ap (p.mul Am cw)) beta))
        (p.add (p.sub Ap (p.mul Am cw)) beta)
        (p.mul F32.two (p.sub Am (p.mul Ap cw)))
        (p.sub (p.sub Ap (p.mul Am cw)) beta)) ∧
  ∀ (p : Ctx) (fs t freq q g : F32) (cap : Nat),
    envCoefS p fs t = Num.exp (F32.neg (p.div F32.one (p.mul fs t))) ∧
    envCoefMs p fs t = Num.exp (F32.neg (p.div F32.one (p.div (p.mul fs t) F32.thousand))) ∧
    (svfCoeffs p freq q g fs).g = Num.tan (p.div (p.mul F32.pi freq) fs) ∧
    (svfCoeffs p freq q g fs).r = p.div F32.one (p.mul F32.two (F32.fmax q 0x3DCCCCCD)) ∧
    (svfCoeffs p freq q g fs).d =
      p.add (p.add F32.one (p.mul (p.mul F32.two (svfCoeffs p freq q g fs).r) (svfCoeffs p freq q g fs).g))
        (p.mul (svfCoeffs p freq q g fs).g (svfCoeffs p freq q g fs).g) ∧
    (svfCoeffs p freq q g fs).ak =
      p.sub (p.mul (Num.pow F32.ten (p.div g F32.forty)) (Num.pow F32.ten (p.div g F32.forty))) F32.one ∧
    (∀ P : GateP,
      (gateCoeffs p fs P).openTh = p.db2lin P.threshDb ∧
      (gateCoeffs p fs P).closeTh = p.div (gateCoeffs p fs P).openTh (p.db2lin P.hystDb) ∧
      (gateCoeffs p fs P).rangeF = p.db2lin P.rangeDb ∧
      (gateCoeffs p fs P).a = envCoefMs p fs P.attackMs ∧ (gateCoeffs p fs P).r = envCoefMs p fs P.releaseMs ∧
      (gateCoeffs p fs P).holdSamples = F32.toU32 (F32.floor (p.div (p.mul fs P.holdMs) F32.thousand))) ∧
    (∀ P : DeessP,
      (deessCoeffs p fs P).thLin = p.db2lin P.threshDb ∧
      (deessCoeffs p fs P).expo = p.sub (p.div F32.one (F32.fmax P.ratio F32.one)) F32.one ∧
      (deessCoeffs p fs P).floorG = p.db2lin (F32.neg P.maxRedDb) ∧
      (deessCoeffs p fs P).a = envCoefMs p fs P.attackMs ∧ (deessCoeffs p fs P).r = envCoefMs p fs P.releaseMs ∧
      (deessCoeffs p fs P).xg = (svfCoeffs p P.freq p.xoverQ F32.zero fs).g ∧
      (deessCoeffs p fs P).xr = (svfCoeffs p P.freq p.xoverQ F32.zero fs).r ∧
      (deessCoeffs p fs P).xd = (svfCoeffs p P.freq p.xoverQ F32.zero fs).d) ∧
    (∀ P : CompP,
      (compCoeffs p fs P).slope = p.sub (p.div F32.one (F32.fmax P.ratio F32.one)) F32.one ∧
      (compCoeffs p fs P).a = envCoefMs p fs P.attackMs ∧ (compCoeffs p fs P).r = envCoefMs p fs P.releaseMs ∧
      (compCoeffs p fs P).makeupLin = p.db2lin P.makeupDb) ∧
    (∀ P : FetP,
      (fetCoeffs p fs P).drive = p.db2lin P.inputDb ∧
      (fetCoeffs p fs P).expo = p.sub (p.div F32.one (F32.fmax P.ratio F32.one)) F32.one ∧
      (fetCoeffs p fs P).makeup = (if P.autoMakeup then
        p.db2lin (p.mul (p.sub F32.zero 0xC1A00000) (p.sub F32.one (p.div F32.one (F32.fmax P.ratio F32.one))))
        else F32.one) ∧
      (fetCoeffs p fs P).a = envCoefMs p fs P.attackMs ∧ (fetCoeffs p fs P).r = envCoefMs p fs P.releaseMs) ∧
    fetThLin p g = p.db2lin (p.add 0xC1A00000 g) ∧
    pitchRatio p t = Num.pow F32.two (p.div
      (p.mul (p.div (p.sub (F32.clamp t F32.zero F32.hundred) F32.fifty) F32.fifty) F32.twelve) F32.twelve) ∧
    pitchWin p fs t cap = F32.clamp (F32.floor (p.div (p.mul fs t) F32.thousand)) F32.two
      (F32.fmax F32.two (F32.ofNat (cap - 4))) ∧
    dlyTarget p fs t = F32.clamp (p.div (p.mul fs t) F32.thousand) F32.two
      (F32.fmax F32.two (F32.floor (p.mul F32.two fs))) ∧
    (∀ P : LimP,
      (limCoeffs p fs P).ceilLin = p.db2lin P.ceilingDb ∧
      (limCoeffs p fs P).rel = envCoefMs p fs P.releaseMs ∧
      (limCoeffs p fs P).la = BitVec.ofNat 32
        (min (F32.toU32 (F32.floor (p.div (p.mul fs P.lookaheadMs) F32.thousand))).toNat (limCap p fs - 4))) ∧
    lowpassCoef p fs freq = p.sub F32.one (Num.exp (F32.neg (p.div (p.mul (p.mul F32.two F32.pi) freq) fs))) ∧
    (rvsClen p fs).length = 8 ∧ (rvsAlen p fs).length = 4 ∧
    (∀ i, i < 8 → ((rvsClen p fs).getD i 0).toNat = max 1
      (F32.toU32 (F32.floor (p.add (p.div (p.mul (F32.ofNat (p.rvsCombRef.getD i 1)) fs) p.refFs) F32.half))).toNat) ∧
    (∀ j, j < 4 → ((rvsAlen p fs).getD j 0).toNat = if j < p.nap then max 1
      (F32.toU32 (F32.floor (p.add (p.div (p.mul (F32.ofNat (p.rvsApRef.getD j 1)) fs) p.refFs) F32.half))).toNat
      else 1) ∧
    (∀ (P : FdnP) (i : Nat), i < 8 →
      let sz := F32.clamp P.size F32.zero F32.one
      let raw := F32.toU32 (F32.floor (p.add
        (p.div (p.mul (p.mul (F32.ofNat (p.fdnLenRefAt i)) (p.fdnScale sz)) fs) p.refFs) F32.half))
      let cap := (F32.toU32 (F32.floor (p.div (p.mul fs F32.ninety) F32.thousand))).toNat + 1
      (fdnCoeffs p fs P).fbgain = p.fdnGain sz ∧
      ((fdnCoeffs p fs P).len.getD i 0).toNat = max 1 (min raw.toNat (cap - 1)))

/-- RST of the units without a memory: with `0 < fs ≤ FS_MAX` the rate and `ACTIVE` are set, state and control inputs take
their reset values, the coefficients are recomputed if the unit is configured, and nothing else changes; with another
rate the command ends with `Param` (rules R35, R151, R201, R211, R219, R227, R237, R261, R271, R371). -/
def Obligations.RstOfUnitsWithoutMemory : Prop :=
  ∀ (s : State) (fs : Word),
    (F32.lt F32.zero fs = true → F32.le fs s.params.fsMax = true →
      exec (.envRst fs) s = .next (State.complete { s with env := { s.env with
        life := ⟨true, s.env.life.configured, fs⟩
        envelope := List.replicate s.params.nch F32.zero
        C := if s.env.life.configured then ⟨envCoefS s.ctx fs s.env.P.tAtt, envCoefS s.ctx fs s.env.P.tRel⟩
          else s.env.C } } []) ∧
      exec (.gateRst fs) s = .next (State.complete { s with gate := { s.gate with
        life := ⟨true, s.gate.life.configured, fs⟩
        ch := List.replicate s.params.nch ⟨F32.zero, .closed, 0, F32.one⟩
        C := if s.gate.life.configured then gateCoeffs s.ctx fs s.gate.P else s.gate.C } } []) ∧
      exec (.agcRst fs) s = .next (State.complete { s with agc := { s.agc with
        life := ⟨true, s.agc.life.configured, fs⟩
        K := ⟨false, F32.zero, F32.one⟩
        ch := List.replicate s.params.nch ⟨F32.zero, F32.one⟩
        C := if s.agc.life.configured then
            ⟨envCoefMs s.ctx fs s.agc.P.attackMs, envCoefMs s.ctx fs s.agc.P.releaseMs⟩
          else s.agc.C } } []) ∧
      exec (.deessRst fs) s = .next (State.complete { s with deess := { s.deess with
        life := ⟨true, s.deess.life.configured, fs⟩
        ch := List.replicate s.params.nch ⟨F32.zero, F32.zero, F32.zero⟩
        C := if s.deess.life.configured then deessCoeffs s.ctx fs s.deess.P else s.deess.C } } []) ∧
      exec (.compRst fs) s = .next (State.complete { s with comp := { s.comp with
        life := ⟨true, s.comp.life.configured, fs⟩
        gain := List.replicate s.params.nch F32.one
        C := if s.comp.life.configured then compCoeffs s.ctx fs s.comp.P else s.comp.C } } []) ∧
      exec (.fetRst fs) s = .next (State.complete { s with fet := { s.fet with
        life := ⟨true, s.fet.life.configured, fs⟩
        K := ⟨F32.zero, fetThLin s.ctx F32.zero⟩
        envelope := List.replicate s.params.nch F32.zero
        C := if s.fet.life.configured then fetCoeffs s.ctx fs s.fet.P else s.fet.C } } []) ∧
      exec (.satRst fs) s = .next (State.complete { s with sat := { s.sat with
        life := ⟨true, s.sat.life.configured, fs⟩
        driveScale := F32.one
        C := ⟨bqCoeffs s.ctx .highShelf 0x457A0000 s.params.satShelfQ 0xC0C00000 fs,
          bqCoeffs s.ctx .highShelf 0x457A0000 s.params.satShelfQ 0x40C00000 fs⟩
        ch := List.replicate s.params.nch ⟨⟨0, 0, 0, 0⟩, ⟨0, 0, 0, 0⟩⟩ } } []) ∧
      exec (.widRst fs) s = .next (State.complete { s with wid := { s.wid with
        life := ⟨true, s.wid.life.configured, fs⟩
        pairs := List.replicate (s.params.nch / 2) ⟨F32.zero, F32.zero⟩
        k := if s.wid.life.configured then lowpassCoef s.ctx fs s.wid.P.bassFreq else s.wid.k } } []) ∧
      exec (.xnRst fs) s = .next (State.complete { s with xn := { s.xn with
        life := ⟨true, s.xn.life.configured, fs⟩
        lps := List.replicate s.params.nch ⟨0, 0, 0, 0, 0, 0⟩
        acc := ⟨0, F32.zero, F32.zero, F32.zero, F32.zero, F32.zero⟩
        out := ⟨F32.one, F32.zero, F32.zero, F32.zero, F32.one⟩
        klp := if s.xn.life.configured then
            ⟨lowpassCoef s.ctx fs s.xn.P.fMudLo, lowpassCoef s.ctx fs s.xn.P.fMudHi,
             lowpassCoef s.ctx fs s.xn.P.fCoreLo, lowpassCoef s.ctx fs s.xn.P.fCoreHi,
             lowpassCoef s.ctx fs s.xn.P.fScrLo, lowpassCoef s.ctx fs s.xn.P.fScrHi⟩
          else s.xn.klp } } [])) ∧
    (¬(F32.lt F32.zero fs = true ∧ F32.le fs s.params.fsMax = true) →
      ∀ i ∈ [Instr.envRst fs, .gateRst fs, .agcRst fs, .deessRst fs, .compRst fs, .fetRst fs, .satRst fs, .widRst fs,
        .xnRst fs], exec i s = .next (s.raise .param))

/-- RST of the units with a memory, and of OS: each ring gets the capacity of rule R81 and no cell that is not `+0.0`,
each cursor is 0, the rest as for every RST; the delay's `CURRENT` starts at `TARGET` where it is configured, and
otherwise at 2.0 with a snap pending; `OS.RST` takes no rate (rules R81, R83, R281, R291, R296, R311, R321, R341, R351).
The model's readings in it: the sums of the capacities are exact and do not wrap (log entry 12), the delay ring has 16
guard cells as rule R81 says and not the 4 of D30 (log entry 22), and an allpass past NAP has a memory of one cell (log
entry 19). -/
def Obligations.RstSizesAndClearsMemories : Prop :=
  ∀ (s : State) (fs : Word),
    (∀ cap i, (Memory.sized cap).cap = cap ∧ (Memory.sized cap).read i = F32.zero) ∧
    (F32.lt F32.zero fs = true → F32.le fs s.params.fsMax = true →
      (let cap := (F32.toU32 (F32.floor (s.ctx.div (s.ctx.mul fs F32.twoHundred) F32.thousand))).toNat + 4
       exec (.pitchRst fs) s = .next (State.complete { s with pitch := { s.pitch with
        life := ⟨true, s.pitch.life.configured, fs⟩
        ch := List.replicate s.params.nch ⟨0, F32.zero, Memory.sized cap⟩
        C := if s.pitch.life.configured then
            ⟨pitchRatio s.ctx s.pitch.P.amount, s.ctx.sub F32.one (pitchRatio s.ctx s.pitch.P.amount),
             pitchWin s.ctx fs s.pitch.P.windowMs cap⟩
          else s.pitch.C } } [])) ∧
      (let cap := (F32.toU32 (F32.floor (s.ctx.mul F32.two fs))).toNat + 16
       let target := dlyTarget s.ctx fs s.dly.P.timeMs
       exec (.dlyRst fs) s = .next (State.complete { s with dly := { s.dly with
        life := ⟨true, s.dly.life.configured, fs⟩
        snap := !s.dly.life.configured
        target := if s.dly.life.configured then target else s.dly.target
        ch := List.replicate s.params.nch
          ⟨if s.dly.life.configured then target else F32.two, 0, Memory.sized cap⟩ } } [])) ∧
      (let lens := rvsClen s.ctx fs
       let aps := rvsAlen s.ctx fs
       exec (.rvsRst fs) s = .next (State.complete { s with rvs := { s.rvs with
        life := ⟨true, s.rvs.life.configured, fs⟩
        clen := lens
        alen := aps
        ch := List.replicate s.params.nch
          ⟨lens.map (fun n => ⟨0, F32.zero, Memory.sized n.toNat⟩), aps.map (fun n => ⟨0, Memory.sized n.toNat⟩)⟩ } } [])) ∧
      (let cap := (F32.toU32 (F32.floor (s.ctx.div (s.ctx.mul fs F32.ninety) F32.thousand))).toNat + 1
       exec (.fdnRst fs) s = .next (State.complete { s with fdn := { s.fdn with
        life := ⟨true, s.fdn.life.configured, fs⟩
        ch := List.replicate s.params.nch
          ⟨0, List.replicate 8 F32.zero, List.replicate 8 (Memory.sized cap)⟩
        C := if s.fdn.life.configured then fdnCoeffs s.ctx fs s.fdn.P else s.fdn.C } } [])) ∧
      (let cap := (F32.toU32 (F32.floor (s.ctx.div (s.ctx.mul fs s.params.limLaMaxMs) F32.thousand))).toNat + 4
       exec (.limRst fs) s = .next (State.complete { s with lim := { s.lim with
        life := ⟨true, s.lim.life.configured, fs⟩
        ch := List.replicate s.params.nch ⟨0, F32.one, Memory.sized cap⟩
        C := if s.lim.life.configured then limCoeffs s.ctx fs s.lim.P else s.lim.C } } []))) ∧
    exec .osRst s = .next (State.complete { s with os :=
      { life := ⟨true, s.os.life.configured, F32.zero⟩
        ch := List.replicate s.params.nch ⟨List.replicate 16 F32.zero, List.replicate 64 F32.zero⟩ } } []) ∧
    (¬(F32.lt F32.zero fs = true ∧ F32.le fs s.params.fsMax = true) →
      ∀ i ∈ [Instr.pitchRst fs, .dlyRst fs, .rvsRst fs, .fdnRst fs, .limRst fs], exec i s = .next (s.raise .param))

/-- CFG of the units with one instance: always completes, writes the P registers in operand order, sets `CONFIGURED`, and
recomputes the coefficients if the unit is active; it touches no state register and no memory (rules R36, R152, R202,
R212, R220, R228, R238, R263, R272, R283, R313, R322, R352, R373). `DLY.CFG` besides makes `CURRENT` of every channel jump to
`TARGET` while the unit is active with a snap pending, and otherwise leaves it to glide (rules R292, R296). -/
def Obligations.CfgWritesParametersAndCoefficients : Prop :=
  ∀ (s : State) (a b c d e f g : Word) (m : Bool) (ty : SatType),
    exec (.envCfg a b) s = .next (State.complete { s with env := { s.env with
      P := ⟨a, b⟩, life := { s.env.life with configured := true }
      C := if s.env.life.active then ⟨envCoefS s.ctx s.env.life.fsEff a, envCoefS s.ctx s.env.life.fsEff b⟩
        else s.env.C } } []) ∧
    exec (.gateCfg a b c d e f) s = .next (State.complete { s with gate := { s.gate with
      P := ⟨a, b, c, d, e, f⟩, life := { s.gate.life with configured := true }
      C := if s.gate.life.active then gateCoeffs s.ctx s.gate.life.fsEff ⟨a, b, c, d, e, f⟩ else s.gate.C } } []) ∧
    exec (.agcCfg a b c d) s = .next (State.complete { s with agc := { s.agc with
      P := ⟨a, b, c, d⟩, life := { s.agc.life with configured := true }
      C := if s.agc.life.active then ⟨envCoefMs s.ctx s.agc.life.fsEff c, envCoefMs s.ctx s.agc.life.fsEff d⟩
        else s.agc.C } } []) ∧
    exec (.deessCfg a b c d e f) s = .next (State.complete { s with deess := { s.deess with
      P := ⟨a, b, c, d, e, f⟩, life := { s.deess.life with configured := true }
      C := if s.deess.life.active then deessCoeffs s.ctx s.deess.life.fsEff ⟨a, b, c, d, e, f⟩
        else s.deess.C } } []) ∧
    exec (.compCfg a b c d e f) s = .next (State.complete { s with comp := { s.comp with
      P := ⟨a, b, c, d, e, f⟩, life := { s.comp.life with configured := true }
      C := if s.comp.life.active then compCoeffs s.ctx s.comp.life.fsEff ⟨a, b, c, d, e, f⟩ else s.comp.C } } []) ∧
    exec (.fetCfg m a b c d) s = .next (State.complete { s with fet := { s.fet with
      P := ⟨a, b, c, d, m⟩, life := { s.fet.life with configured := true }
      C := if s.fet.life.active then fetCoeffs s.ctx s.fet.life.fsEff ⟨a, b, c, d, m⟩ else s.fet.C } } []) ∧
    exec (.satCfg ty a) s = .next (State.complete { s with sat := { s.sat with
      P := ⟨a, ty⟩, life := { s.sat.life with configured := true } } } []) ∧
    exec (.pitchCfg a b) s = .next (State.complete { s with pitch := { s.pitch with
      P := ⟨a, b⟩, life := { s.pitch.life with configured := true }
      C := if s.pitch.life.active then
          ⟨pitchRatio s.ctx a, s.ctx.sub F32.one (pitchRatio s.ctx a),
           pitchWin s.ctx s.pitch.life.fsEff b (pitchCap s.ctx s.pitch.life.fsEff)⟩
        else s.pitch.C } } []) ∧
    exec (.rvsCfg a b c) s = .next (State.complete { s with rvs := { s.rvs with
      P := ⟨a, b, c⟩, life := { s.rvs.life with configured := true } } } []) ∧
    exec (.fdnCfg a b c) s = .next (State.complete { s with fdn := { s.fdn with
      P := ⟨a, b, c⟩, life := { s.fdn.life with configured := true }
      C := if s.fdn.life.active then fdnCoeffs s.ctx s.fdn.life.fsEff ⟨a, b, c⟩ else s.fdn.C } } []) ∧
    exec (.widCfg m a b) s = .next (State.complete { s with wid := { s.wid with
      P := ⟨a, b, m⟩, life := { s.wid.life with configured := true }
      k := if s.wid.life.active then lowpassCoef s.ctx s.wid.life.fsEff b else s.wid.k } } []) ∧
    exec (.limCfg a b c) s = .next (State.complete { s with lim := { s.lim with
      P := ⟨a, b, c⟩, life := { s.lim.life with configured := true }
      C := if s.lim.life.active then limCoeffs s.ctx s.lim.life.fsEff ⟨a, b, c⟩ else s.lim.C } } []) ∧
    exec (.xnCfg a b c d e f g) s = .next (State.complete { s with xn := { s.xn with
      P := ⟨a, b, c, d, e, f, g⟩, life := { s.xn.life with configured := true }
      klp := if s.xn.life.active then
          ⟨lowpassCoef s.ctx s.xn.life.fsEff b, lowpassCoef s.ctx s.xn.life.fsEff c,
           lowpassCoef s.ctx s.xn.life.fsEff d, lowpassCoef s.ctx s.xn.life.fsEff e,
           lowpassCoef s.ctx s.xn.life.fsEff f, lowpassCoef s.ctx s.xn.life.fsEff g⟩
        else s.xn.klp } } []) ∧
    (let target := dlyTarget s.ctx s.dly.life.fsEff a
    let configured : Life := { s.dly.life with configured := true }
    (s.dly.life.active = false → exec (.dlyCfg a b c) s = .next (State.complete
      { s with dly := { s.dly with P := ⟨a, b, c⟩, life := configured } } [])) ∧
    (s.dly.life.active = true → s.dly.snap = false → exec (.dlyCfg a b c) s = .next (State.complete
      { s with dly := { s.dly with P := ⟨a, b, c⟩, life := configured, target := target } } [])) ∧
    (s.dly.life.active = true → s.dly.snap = true → exec (.dlyCfg a b c) s = .next (State.complete
      { s with dly := { s.dly with
        P := ⟨a, b, c⟩, life := configured, target := target, snap := false
        ch := s.dly.ch.map (fun c => { c with current := target }) } } [])))

/-- The AUX commands that write a control input need `ACTIVE` only, write it, and recompute what depends on it (rules
R213, R240, R241, R264). -/
def Obligations.ControlInputsAreWrittenWhileActive : Prop :=
  ∀ (s : State) (m : Bool) (v : Word),
    encode (.agcExt m v) = [if m then 0x04300001 else 0x04300000, v] ∧ encode (.fetThoff v) = [0x07300000, v] ∧
    encode (.satDscale v) = [0x08300000, v] ∧
    (s.agc.life.active = false → exec (.agcExt m v) s = .next (s.raise .inactive)) ∧
    (s.agc.life.active = true → exec (.agcExt m v) s = .next (State.complete
      { s with agc := { s.agc with K := ⟨m, v, Num.pow F32.ten (s.ctx.div v F32.twenty)⟩ } } [])) ∧
    (s.fet.life.active = false → exec (.fetThoff v) s = .next (s.raise .inactive)) ∧
    (s.fet.life.active = true → exec (.fetThoff v) s = .next (State.complete
      { s with fet := { s.fet with
        K := ⟨v, Num.pow F32.ten (s.ctx.div (s.ctx.add 0xC1A00000 v) F32.twenty)⟩ } } [])) ∧
    (s.sat.life.active = false → exec (.satDscale v) s = .next (s.raise .inactive)) ∧
    (s.sat.life.active = true → exec (.satDscale v) s = .next (State.complete
      { s with sat := { s.sat with driveScale := v } } []))

/-- RST, CFG and GOFF of the biquad and of the state-variable filter: RST acts on every instance, CFG and GOFF on the one
that IDX names, and the coefficients follow the gain plus its offset (rules R171, R172, R177, R181, R182, R186). -/
def Obligations.FilterInstancesAreResetAndConfigured : Prop :=
  ∀ (s : State) (fs freq q gain : Word) (idx : BitVec 8) (bt : BqType) (st : SvfType),
    (F32.lt F32.zero fs = true → F32.le fs s.params.fsMax = true →
      exec (.bqRst fs) s = .next (State.complete { s with bq := s.bq.map (fun u => { u with
        life := ⟨true, u.life.configured, fs⟩, gainOffDb := F32.zero
        taps := List.replicate s.params.nch ⟨0, 0, 0, 0⟩
        C := if u.life.configured then
            bqCoeffs s.ctx u.P.type u.P.freq u.P.q (s.ctx.add u.P.gainDb F32.zero) fs
          else u.C }) } []) ∧
      exec (.svfRst fs) s = .next (State.complete { s with svf := s.svf.map (fun u => { u with
        life := ⟨true, u.life.configured, fs⟩, gainOffDb := F32.zero
        ch := List.replicate s.params.nch ⟨0, 0⟩
        C := if u.life.configured then svfCoeffs s.ctx u.P.freq u.P.q (s.ctx.add u.P.gainDb F32.zero) fs
          else u.C }) } [])) ∧
    (¬(F32.lt F32.zero fs = true ∧ F32.le fs s.params.fsMax = true) →
      exec (.bqRst fs) s = .next (s.raise .param) ∧ exec (.svfRst fs) s = .next (s.raise .param)) ∧
    (idx.toNat < s.params.neq →
      (let u := s.bqAt idx.toNat
       exec (.bqCfg idx bt freq q gain) s = .next (State.complete { s with bq := s.bq.set idx.toNat { u with
        P := ⟨bt, freq, q, gain⟩, life := { u.life with configured := true }
        C := if u.life.active then bqCoeffs s.ctx bt freq q (s.ctx.add gain u.gainOffDb) u.life.fsEff
          else u.C } } []) ∧
       (u.life.active = false → exec (.bqGoff idx gain) s = .next (s.raise .inactive)) ∧
       (u.life.active = true → exec (.bqGoff idx gain) s = .next (State.complete { s with bq :=
        (s.bq.set idx.toNat { u with
          gainOffDb := gain
          C := if u.life.configured then
              bqCoeffs s.ctx u.P.type u.P.freq u.P.q (s.ctx.add u.P.gainDb gain) u.life.fsEff
            else u.C }) } []))) ∧
      (let u := s.svfAt idx.toNat
       exec (.svfCfg idx st freq q gain) s = .next (State.complete { s with svf := s.svf.set idx.toNat { u with
        P := ⟨st, freq, q, gain⟩, life := { u.life with configured := true }
        C := if u.life.active then svfCoeffs s.ctx freq q (s.ctx.add gain u.gainOffDb) u.life.fsEff
          else u.C } } []) ∧
       (u.life.active = false → exec (.svfGoff idx gain) s = .next (s.raise .inactive)) ∧
       (u.life.active = true → exec (.svfGoff idx gain) s = .next (State.complete { s with svf :=
        (s.svf.set idx.toNat { u with
          gainOffDb := gain
          C := if u.life.configured then
              svfCoeffs s.ctx u.P.freq u.P.q (s.ctx.add u.P.gainDb gain) u.life.fsEff
            else u.C }) } []))))

/-! ### PROC of the units -/

/-- `ENV.PROC` is the asymmetric one-pole of rule R153 on its channel's envelope, which it returns and which is all that it
writes (rules R153, R154, R157). -/
def Obligations.EnvelopeFollowsTheInput : Prop :=
  ∀ (s : State) (ch : BitVec 4) (v : Word),
    encode (.envProc ch v) = [rowWord 0x00200000 ch 0, v] ∧
    s.turnsAway (.envProc ch v) (channelOk s.params ch) s.env.life ∧
    (ch.toNat < s.params.nch → s.env.life.active = true → s.env.life.configured = true →
      let p := s.ctx
      let e := s.env.envelope.getD ch.toNat 0
      let k := if F32.lt e v then s.env.C.a else s.env.C.r
      let e' := p.add (p.mul k e) (p.mul (p.sub F32.one k) v)
      exec (.envProc ch v) s = .next (State.complete
        { s with env := { s.env with envelope := s.env.envelope.set ch.toNat e' } } [e']))

/-- `BQ.PROC`: the five-term recurrence summed left to right, then the taps shifted (rules R175, R176). -/
def Obligations.BiquadRunsItsRecurrence : Prop :=
  ∀ (s : State) (ch : BitVec 4) (idx : BitVec 8) (x : Word),
    encode (.bqProc ch idx x) = [rowWord 0x01200000 ch idx, x] ∧
    s.turnsAway (.bqProc ch idx x) (channelOk s.params ch && bandOk s.params idx) (s.bqAt idx.toNat).life ∧
    (ch.toNat < s.params.nch → idx.toNat < s.params.neq → (s.bqAt idx.toNat).life.active = true →
      (s.bqAt idx.toNat).life.configured = true →
      let p := s.ctx
      let u := s.bqAt idx.toNat
      let t := u.taps.getD ch.toNat ⟨0, 0, 0, 0⟩
      let y := p.sub (p.sub (p.add (p.add (p.mul u.C.b0 x) (p.mul u.C.b1 t.x1)) (p.mul u.C.b2 t.x2))
        (p.mul u.C.a1 t.y1)) (p.mul u.C.a2 t.y2)
      exec (.bqProc ch idx x) s = .next (State.complete
        { s with bq := s.bq.set idx.toNat { u with taps := u.taps.set ch.toNat ⟨x, t.x1, y, t.y1⟩ } } [y]))

/-- `SVF.PROC`: the zero-delay-feedback step with the output that the type selects (rules R184, R185). -/
def Obligations.StateVariableFilterStep : Prop :=
  ∀ (s : State) (ch : BitVec 4) (idx : BitVec 8) (x : Word),
    encode (.svfProc ch idx x) = [rowWord 0x02200000 ch idx, x] ∧
    s.turnsAway (.svfProc ch idx x) (channelOk s.params ch && bandOk s.params idx) (s.svfAt idx.toNat).life ∧
    (ch.toNat < s.params.nch → idx.toNat < s.params.neq → (s.svfAt idx.toNat).life.active = true →
      (s.svfAt idx.toNat).life.configured = true →
      let p := s.ctx
      let u := s.svfAt idx.toNat
      let t := u.ch.getD ch.toNat ⟨0, 0⟩
      let hp := p.div (p.sub (p.sub x (p.mul (p.add (p.mul F32.two u.C.r) u.C.g) t.s1)) t.s2) u.C.d
      let bp := p.add (p.mul u.C.g hp) t.s1
      let lp := p.add (p.mul u.C.g bp) t.s2
      let y := match u.P.type with
        | .highPass => hp
        | .lowPass => lp
        | .peaking => p.add x (p.mul u.C.ak (p.mul bp (p.mul F32.two u.C.r)))
      exec (.svfProc ch idx x) s = .next (State.complete
        { s with svf := s.svf.set idx.toNat { u with
          ch := (u.ch.set ch.toNat ⟨p.sub (p.mul F32.two bp) t.s1, p.sub (p.mul F32.two lp) t.s2⟩) } } [y]))

/-- `GATE.PROC`: detect, transition, smooth, apply, in this order (rules R204, R205). -/
def Obligations.GateDetectsThenSmooths : Prop :=
  ∀ (s : State) (ch : BitVec 4) (x : Word),
    encode (.gateProc ch x) = [rowWord 0x03200000 ch 0, x] ∧
    s.turnsAway (.gateProc ch x) (channelOk s.params ch) s.gate.life ∧
    (ch.toNat < s.params.nch → s.gate.life.active = true → s.gate.life.configured = true →
      let p := s.ctx
      let c := s.gate.C
      let g := s.gate.ch.getD ch.toNat ⟨F32.zero, .closed, 0, F32.one⟩
      let e := envStep p c.a c.r g.envelope (F32.abs x)
      let st : GateState × Word := match g.state with
        | .closed => if F32.lt c.openTh e then (.opened, 0) else (.closed, g.holdCnt)
        | .opened => if F32.le c.closeTh e then (.opened, 0)
          else if c.holdSamples.toNat ≤ g.holdCnt.toNat then (.closed, 0) else (.opened, g.holdCnt + 1)
      let t := if st.1 = .opened then F32.one else c.rangeF
      let k := if F32.lt g.gain t then c.a else c.r
      let gain := p.add (p.mul k g.gain) (p.mul (p.sub F32.one k) t)
      exec (.gateProc ch x) s = .next (State.complete
        { s with gate := { s.gate with ch := s.gate.ch.set ch.toNat ⟨e, st.1, st.2, gain⟩ } } [p.mul x gain]))

/-- The gate can never close before its hold timer expires: from a sample that left it open with the counter at 0, it is
still open after any `HOLD_SAMPLES` samples or fewer (rules R200, R205, R206). -/
def Obligations.GateHoldsBeforeItCloses : Prop :=
  ∀ (p : Ctx) (c : GateC) (s : GateS) (xs : List F32), s.state = .opened → s.holdCnt = 0 →
    xs.length ≤ c.holdSamples.toNat → (gateRun p c s xs).state = .opened

/-- `AGC.PROC`: the envelope runs in both modes; external mode smooths toward the cached target, internal mode passes a
sample whose envelope is below 1e-4 and otherwise applies the clamped distance to the target (rule R214). -/
def Obligations.AutoLevelSeeksItsTarget : Prop :=
  ∀ (s : State) (ch : BitVec 4) (x : Word),
    encode (.agcProc ch x) = [rowWord 0x04200000 ch 0, x] ∧
    s.turnsAway (.agcProc ch x) (channelOk s.params ch) s.agc.life ∧
    (ch.toNat < s.params.nch → s.agc.life.active = true → s.agc.life.configured = true →
      let p := s.ctx
      let c := s.agc.C
      let g := s.agc.ch.getD ch.toNat ⟨F32.zero, F32.one⟩
      let e := envStep p c.a c.r g.envelope (F32.abs x)
      (s.agc.K.extMode = true →
        let sg := p.add (p.mul c.a g.sgain) (p.mul (p.sub F32.one c.a) s.agc.K.extTgt)
        exec (.agcProc ch x) s = .next (State.complete
          { s with agc := { s.agc with ch := s.agc.ch.set ch.toNat ⟨e, sg⟩ } } [p.mul x sg])) ∧
      (s.agc.K.extMode = false → F32.lt e 0x38D1B717 = true →
        exec (.agcProc ch x) s = .next (State.complete
          { s with agc := { s.agc with ch := s.agc.ch.set ch.toNat ⟨e, g.sgain⟩ } } [x])) ∧
      (s.agc.K.extMode = false → F32.lt e 0x38D1B717 = false →
        let gdb := F32.clamp (p.sub s.agc.P.targetDb (p.mul F32.twenty (Num.log10 e)))
          (F32.neg s.agc.P.rangeDb) s.agc.P.rangeDb
        exec (.agcProc ch x) s = .next (State.complete
          { s with agc := { s.agc with ch := s.agc.ch.set ch.toNat ⟨e, g.sgain⟩ } }
          [p.mul x (Num.pow F32.ten (p.div gdb F32.twenty))])))

/-- `DEESS.PROC`: the ZDF lowpass splits the sample, the gain acts on the high band only, with the floor (rule R222). -/
def Obligations.DeEsserActsOnTheHighBand : Prop :=
  ∀ (s : State) (ch : BitVec 4) (x : Word),
    encode (.deessProc ch x) = [rowWord 0x05200000 ch 0, x] ∧
    s.turnsAway (.deessProc ch x) (channelOk s.params ch) s.deess.life ∧
    (ch.toNat < s.params.nch → s.deess.life.active = true → s.deess.life.configured = true →
      let p := s.ctx
      let c := s.deess.C
      let d := s.deess.ch.getD ch.toNat ⟨F32.zero, F32.zero, F32.zero⟩
      let hp := p.div (p.sub (p.sub x (p.mul (p.add (p.mul F32.two c.xr) c.xg) d.xs1)) d.xs2) c.xd
      let bp := p.add (p.mul c.xg hp) d.xs1
      let low := p.add (p.mul c.xg bp) d.xs2
      let high := p.sub x low
      let e := envStep p c.a c.r d.envelope (F32.abs high)
      let g := if F32.lt c.thLin e then F32.fmax (Num.pow (p.div e c.thLin) c.expo) c.floorG else F32.one
      exec (.deessProc ch x) s = .next (State.complete
        { s with deess := { s.deess with
          ch := (s.deess.ch.set ch.toNat
            ⟨p.sub (p.mul F32.two bp) d.xs1, p.sub (p.mul F32.two low) d.xs2, e⟩) } } [p.add low (p.mul high g)]))

/-- `COMP.PROC`: level in dB, static curve with its quadratic knee, smoothed linear gain, makeup (rules R230, R231). -/
def Obligations.SoftKneeCompressorStep : Prop :=
  ∀ (s : State) (ch : BitVec 4) (x : Word),
    encode (.compProc ch x) = [rowWord 0x06200000 ch 0, x] ∧
    s.turnsAway (.compProc ch x) (channelOk s.params ch) s.comp.life ∧
    (ch.toNat < s.params.nch → s.comp.life.active = true → s.comp.life.configured = true →
      let p := s.ctx
      let c := s.comp.C
      let gain := s.comp.gain.getD ch.toNat F32.one
      let v := F32.abs x
      let knee := s.comp.P.kneeDb
      let ov := p.sub (p.mul F32.twenty (Num.log10 v)) s.comp.P.threshDb
      let t := p.add ov (p.div knee F32.two)
      let red :=
        if F32.lt v 0x358637BD then F32.zero
        else if F32.lt F32.zero knee && F32.le (p.mul F32.two (F32.abs ov)) knee then
          p.div (p.mul c.slope (p.mul t t)) (p.mul F32.two knee)
        else if F32.lt F32.zero ov then p.mul ov c.slope
        else F32.zero
      let tgt := Num.pow F32.ten (p.div red F32.twenty)
      let k := if F32.lt tgt gain then c.a else c.r
      let gain' := p.add (p.mul k gain) (p.mul (p.sub F32.one k) tgt)
      exec (.compProc ch x) s = .next (State.complete
        { s with comp := { s.comp with gain := s.comp.gain.set ch.toNat gain' } } [p.mul (p.mul x gain') c.makeupLin]))

/-- `FET.PROC`: drive before detection, the power law above the threshold, makeup (rule R242). -/
def Obligations.FetCompressorStep : Prop :=
  ∀ (s : State) (ch : BitVec 4) (x : Word),
    encode (.fetProc ch x) = [rowWord 0x07200000 ch 0, x] ∧
    s.turnsAway (.fetProc ch x) (channelOk s.params ch) s.fet.life ∧
    (ch.toNat < s.params.nch → s.fet.life.active = true → s.fet.life.configured = true →
      let p := s.ctx
      let c := s.fet.C
      let xd := p.mul x c.drive
      let e := envStep p c.a c.r (s.fet.envelope.getD ch.toNat F32.zero) (F32.abs xd)
      let g := if F32.lt s.fet.K.thLin e then Num.pow (p.div e s.fet.K.thLin) c.expo else F32.one
      exec (.fetProc ch x) s = .next (State.complete
        { s with fet := { s.fet with envelope := s.fet.envelope.set ch.toNat e } } [p.mul (p.mul xd g) c.makeup]))

/-- `SAT.PROC`: pre filter, drive, waveshaper by type, post filter (rule R265). -/
def Obligations.SaturatorShapesBetweenItsFilters : Prop :=
  ∀ (s : State) (ch : BitVec 4) (x : Word),
    encode (.satProc ch x) = [rowWord 0x08200000 ch 0, x] ∧
    s.turnsAway (.satProc ch x) (channelOk s.params ch) s.sat.life ∧
    (ch.toNat < s.params.nch → s.sat.life.active = true → s.sat.life.configured = true →
      let p := s.ctx
      let t := s.sat.ch.getD ch.toNat ⟨⟨0, 0, 0, 0⟩, ⟨0, 0, 0, 0⟩⟩
      let pre := bqStep p s.sat.C.pre t.pre x
      let d := p.mul (p.mul pre.2 s.sat.P.drive) s.sat.driveScale
      let k := F32.clamp d 0xBF800000 0x3F800000
      let w := match s.sat.P.type with
        | .cubic => p.sub k (p.div (p.mul (p.mul k k) k) F32.three)
        | .tanh => Num.tanh d
      let post := bqStep p s.sat.C.post t.post w
      exec (.satProc ch x) s = .next (State.complete
        { s with sat := { s.sat with ch := s.sat.ch.set ch.toNat ⟨pre.1, post.1⟩ } } [post.2]))

/-- `WID.PROC` on an even channel and the next: mid and side, the mono-bass option, the width (rule R273). -/
def Obligations.WidenerScalesTheSide : Prop :=
  ∀ (s : State) (ch : BitVec 4) (l r : Word),
    encode (.widProc ch l r) = [rowWord 0x0D200000 ch 0, l, r] ∧
    s.turnsAway (.widProc ch l r) (pairOk s.params ch) s.wid.life ∧
    (ch.toNat % 2 = 0 → ch.toNat + 1 < s.params.nch → s.wid.life.active = true → s.wid.life.configured = true →
      let p := s.ctx
      let w := s.wid.pairs.getD (ch.toNat / 2) ⟨F32.zero, F32.zero⟩
      let mid := p.div (p.add l r) F32.two
      let side := p.div (p.sub l r) F32.two
      (s.wid.P.monoBass = true →
        let bass := p.add w.lpm (p.mul s.wid.k (p.sub mid w.lpm))
        let low := p.add w.lps (p.mul s.wid.k (p.sub side w.lps))
        let m2 := p.add bass (p.sub mid bass)
        let sw := p.mul (p.sub side low) s.wid.P.width
        exec (.widProc ch l r) s = .next (State.complete
          { s with wid := { s.wid with pairs := s.wid.pairs.set (ch.toNat / 2) ⟨bass, low⟩ } }
          [p.add m2 sw, p.sub m2 sw])) ∧
      (s.wid.P.monoBass = false →
        let sw := p.mul side s.wid.P.width
        exec (.widProc ch l r) s = .next (State.complete
          { s with wid := { s.wid with pairs := s.wid.pairs.set (ch.toNat / 2) w } }
          [p.add mid sw, p.sub mid sw])))

/-- `PITCH.PROC`: write, two interpolated taps half a window apart under a triangular crossfade, then the phase and the
cursor move (rules R284, R285, R286). That the index `i + 1` of the second sample wraps modulo 2^32 is the model's
reading of rule R15 (log entry 13). -/
def Obligations.PitchReadsTwoTaps : Prop :=
  ∀ (s : State) (ch : BitVec 4) (x : Word),
    encode (.pitchProc ch x) = [rowWord 0x09200000 ch 0, x] ∧
    s.turnsAway (.pitchProc ch x) (channelOk s.params ch) s.pitch.life ∧
    (ch.toNat < s.params.nch → s.pitch.life.active = true → s.pitch.life.configured = true →
      let p := s.ctx
      let win := s.pitch.C.win
      let t := s.pitch.ch.getD ch.toNat ⟨0, F32.zero, Memory.sized 0⟩
      let m := t.mem.write t.wpos.toNat x
      let read := fun d : F32 =>
        let i := F32.toU32 (F32.floor d)
        let s0 := m.back t.wpos i.toNat
        let s1 := m.back t.wpos (i + 1).toNat
        p.add s0 (p.mul (p.sub d (F32.floor d)) (p.sub s1 s0))
      let dA := t.phase
      let dB := p.add dA (p.div win F32.two)
      let dB' := if F32.le win dB then p.sub dB win else dB
      let gA := p.sub F32.one (F32.abs (p.sub (p.div (p.mul F32.two dA) win) F32.one))
      let gB := p.sub F32.one gA
      let q := p.add t.phase s.pitch.C.step
      let q' := if F32.le win q then p.sub q win else q
      let q'' := if F32.lt q' F32.zero then p.add q' win else q'
      exec (.pitchProc ch x) s = .next (State.complete
        { s with pitch := { s.pitch with ch := (s.pitch.ch.set ch.toNat
          ⟨BitVec.ofNat 32 ((t.wpos.toNat + 1) % t.mem.cap), q'', m⟩) } }
        [p.add (p.mul (read dA) gA) (p.mul (read dB') gB)]))

/-- `DLY.PROC`: glide, four-point Lagrange read before the write, the input plus the clipped feedback stored, the mix
returned (rules R294, R297, R298). That the indices `i - 1`, `i + 1` and `i + 2` of the read wrap modulo 2^32 is the
model's reading of rule R15 (log entry 13). -/
def Obligations.DelayReadsThenWrites : Prop :=
  ∀ (s : State) (ch : BitVec 4) (x : Word),
    encode (.dlyProc ch x) = [rowWord 0x0A200000 ch 0, x] ∧
    s.turnsAway (.dlyProc ch x) (channelOk s.params ch) s.dly.life ∧
    (ch.toNat < s.params.nch → s.dly.life.active = true → s.dly.life.configured = true →
      let p := s.ctx
      let t := s.dly.ch.getD ch.toNat ⟨F32.two, 0, Memory.sized 0⟩
      let current := p.add (p.mul 0x3F7FBE77 t.current) (p.mul 0x3A83126F s.dly.target)
      let I := F32.floor current
      let i := F32.toU32 I
      let d := p.sub current I
      let back := fun k : Word => t.mem.back t.wpos k.toNat
      let cm1 := F32.neg (p.div (p.mul (p.mul d (p.sub d F32.one)) (p.sub d F32.two)) F32.six)
      let c0 := p.div (p.mul (p.mul (p.add d F32.one) (p.sub d F32.one)) (p.sub d F32.two)) F32.two
      let c1 := F32.neg (p.div (p.mul (p.mul (p.add d F32.one) d) (p.sub d F32.two)) F32.two)
      let c2 := p.div (p.mul (p.mul (p.add d F32.one) d) (p.sub d F32.one)) F32.six
      let delayed := p.add (p.add (p.add (p.mul cm1 (back (i - 1))) (p.mul c0 (back i))) (p.mul c1 (back (i + 1))))
        (p.mul c2 (back (i + 2)))
      exec (.dlyProc ch x) s = .next (State.complete
        { s with dly := { s.dly with ch := (s.dly.ch.set ch.toNat
          ⟨current, BitVec.ofNat 32 ((t.wpos.toNat + 1) % t.mem.cap),
           t.mem.write t.wpos.toNat (p.add x (p.softclip (p.mul s.dly.P.feedback delayed)))⟩) } }
        [p.add (p.mul x (p.sub F32.one s.dly.P.mix)) (p.mul delayed s.dly.P.mix)]))

/-- The safety clip of the feedback paths: within `±2.0` on every operand that is not a NaN, odd, the identity on the
zeros, and monotone non-decreasing, whatever the curve; the default curve is the hard clamp, under which a NaN becomes
`-2.0` (rule R295). -/
def Obligations.FeedbackClipStaysWithinTwo : Prop :=
  ∀ (p : Ctx) (v : F32),
    (∀ w : F32, F32.le v w = true → F32.le (p.softclip v) (p.softclip w) = true) ∧
    (p.softclip2 = .standard → F32.isNaN v = true → p.softclip v = 0xC0000000) ∧
    (F32.isNaN v = false → F32.le (F32.abs (p.softclip v)) F32.two = true) ∧
    (F32.isNaN v = false → p.softclip (F32.neg v) = F32.neg (p.softclip v)) ∧
    (F32.isZero v = true → p.softclip v = v) ∧
    (p.softclip2 = .standard → p.softclip v = F32.clamp v 0xC0000000 0x40000000) ∧
    (p.softclip2 = .standard → F32.le (F32.abs v) F32.two = true → p.softclip v = v)

/-- `RVS.PROC`: eight combs in order with the running sum of their echoes, the first NAP allpasses in series, the mix. The
combs and the allpasses are those of `combStep` and `allpassStep`, spelled out; the bank handles each
comb with its own length register and sums the echoes from the left; the chain feeds each allpass the output of the one
before and leaves those past NAP as they are (rule R314). -/
def Obligations.SchroederReverbStep : Prop :=
  ∀ (s : State) (ch : BitVec 4) (x : Word),
    encode (.rvsProc ch x) = [rowWord 0x0B200000 ch 0, x] ∧
    s.turnsAway (.rvsProc ch x) (channelOk s.params ch) s.rvs.life ∧
    (ch.toNat < s.params.nch → s.rvs.life.active = true → s.rvs.life.configured = true →
      let p := s.ctx
      let t := s.rvs.ch.getD ch.toNat ⟨[], []⟩
      let bank := combBank p s.rvs.P x s.rvs.clen t.combs F32.zero
      let chain := allpassChain p p.nap s.rvs.alen t.aps (p.div bank.2 F32.eight)
      exec (.rvsProc ch x) s = .next (State.complete
        { s with rvs := { s.rvs with ch := s.rvs.ch.set ch.toNat ⟨bank.1, chain.1⟩ } }
        [p.add (p.mul x (p.sub F32.one s.rvs.P.mix)) (p.mul chain.2 s.rvs.P.mix)])) ∧
    (∀ (P : RvsP) (len : Word) (k : RvsComb),
      let p := s.ctx
      let o := k.mem.read k.idx.toNat
      let filt := p.add (p.mul o (p.sub F32.one P.damp)) (p.mul k.filt P.damp)
      combStep p P len x k =
        (⟨BitVec.ofNat 32 ((k.idx.toNat + 1) % len.toNat), filt,
          k.mem.write k.idx.toNat (p.add x (p.mul filt P.room))⟩, o)) ∧
    (∀ (len : Word) (a : RvsAp),
      let p := s.ctx
      let dl := a.mem.read a.idx.toNat
      let w := p.add x (p.mul F32.half dl)
      allpassStep p len x a =
        (⟨BitVec.ofNat 32 ((a.idx.toNat + 1) % len.toNat), a.mem.write a.idx.toNat w⟩,
         p.sub dl (p.mul F32.half w))) ∧
    (∀ (P : RvsP) (lens : List Word) (cs : List RvsComb) (as : List RvsAp) (acc v : F32) (n : Nat),
      let p := s.ctx
      (lens.length = cs.length →
        combBank p P x lens cs acc =
          (List.zipWith (fun len c => (combStep p P len x c).1) lens cs,
           (List.zipWith (fun len c => (combStep p P len x c).2) lens cs).foldl p.add acc)) ∧
      (lens.length = as.length → n ≤ as.length →
        (allpassChain p n lens as v).1.drop n = as.drop n ∧
        (∀ j, j < n → (allpassChain p n lens as v).1[j]? = (lens.zip as)[j]?.map (fun a =>
          (allpassStep p a.1 (((lens.zip as).take j).foldl (fun u a => (allpassStep p a.1 u a.2).2) v) a.2).1)) ∧
        (allpassChain p n lens as v).2 = ((lens.zip as).take n).foldl (fun u a => (allpassStep p a.1 u a.2).2) v))

/-- `FDN.PROC`: the eight lines read at their lengths, mixed by the Hadamard transform, damped, scaled, re-injected with
the input and clipped; the wet output is the average of the eight reads; the transform is three
butterfly stages of span 1, 2 and 4 and the scaling by `INV_SQRT8`, spelled out for eight values (rules R324, R325). -/
def Obligations.FeedbackDelayNetworkStep : Prop :=
  ∀ (s : State) (ch : BitVec 4) (x : Word),
    encode (.fdnProc ch x) = [rowWord 0x0C200000 ch 0, x] ∧
    s.turnsAway (.fdnProc ch x) (channelOk s.params ch) s.fdn.life ∧
    (ch.toNat < s.params.nch → s.fdn.life.active = true → s.fdn.life.configured = true → s.copiesOk →
      let p := s.ctx
      let t := s.fdn.ch.getD ch.toNat ⟨0, [], []⟩
      let cap := (t.lb.headD Memory.unsized).cap
      let d := fun i : Nat => (t.lb.getD i Memory.unsized).back t.wpos (s.fdn.C.len.getD i 0).toNat
      let m := hadamard8 p [d 0, d 1, d 2, d 3, d 4, d 5, d 6, d 7]
      let lp := fun i : Nat =>
        p.add (p.mul (m.getD i 0) (p.sub F32.one s.fdn.P.damp)) (p.mul (t.lp.getD i 0) s.fdn.P.damp)
      let wet := p.div (p.add (p.add (p.add (p.add (p.add (p.add (p.add (d 0) (d 1)) (d 2)) (d 3)) (d 4)) (d 5))
        (d 6)) (d 7)) F32.eight
      exec (.fdnProc ch x) s = .next (State.complete
        { s with fdn := { s.fdn with ch := (s.fdn.ch.set ch.toNat
          ⟨BitVec.ofNat 32 ((t.wpos.toNat + 1) % cap), (List.range 8).map lp,
           (List.range 8).map (fun i => (t.lb.getD i Memory.unsized).write t.wpos.toNat
             (p.softclip (p.add x (p.mul s.fdn.C.fbgain (lp i)))))⟩) } }
        [p.add (p.mul x (p.sub F32.one s.fdn.P.mix)) (p.mul wet s.fdn.P.mix)])) ∧
    (∀ (a b c d e f g h : F32),
      let p := s.ctx
      let S := p.add
      let D := p.sub
      let k := fun v : F32 => p.mul v 0x3EB504F3
      hadamard8 p [a, b, c, d, e, f, g, h] =
        [k (S (S (S a b) (S c d)) (S (S e f) (S g h))), k (S (S (D a b) (D c d)) (S (D e f) (D g h))),
         k (S (D (S a b) (S c d)) (D (S e f) (S g h))), k (S (D (D a b) (D c d)) (D (D e f) (D g h))),
         k (D (S (S a b) (S c d)) (S (S e f) (S g h))), k (D (S (D a b) (D c d)) (S (D e f) (D g h))),
         k (D (D (S a b) (S c d)) (D (S e f) (S g h))), k (D (D (D a b) (D c d)) (D (D e f) (D g h)))])

/-- `OS.UP` and `OS.DOWN`: the histories pushed, the dot products with the symmetric 64-tap ROM accumulated in ascending
order from `+0.0`, and the ROM itself, its first 32 words as rule R343 prints them; they need `ACTIVE` only (rules R82,
R343, R344, R345). -/
def Obligations.OversamplerConvolvesItsHistories : Prop :=
  ∀ (s : State) (ch : BitVec 4) (x u0 u1 u2 u3 : Word),
    encode (.osUp ch x) = [rowWord 0x0E200000 ch 0, x] ∧
    encode (.osDown ch u0 u1 u2 u3) = [rowWord 0x0E300000 ch 0, u0, u1, u2, u3] ∧
    (s.params.nch ≤ ch.toNat → exec (.osUp ch x) s = .next (s.raise .illegal) ∧
      exec (.osDown ch u0 u1 u2 u3) s = .next (s.raise .illegal)) ∧
    (ch.toNat < s.params.nch → s.os.life.active = false → exec (.osUp ch x) s = .next (s.raise .inactive) ∧
      exec (.osDown ch u0 u1 u2 u3) s = .next (s.raise .inactive)) ∧
    (ch.toNat < s.params.nch → s.os.life.active = true →
      let p := s.ctx
      let t := s.os.ch.getD ch.toNat ⟨List.replicate 16 F32.zero, List.replicate 64 F32.zero⟩
      let uph := (x :: t.uph).take 16
      let dnh := ([u3, u2, u1, u0] ++ t.dnh).take 64
      let up := fun ph : Nat => p.mul F32.four
        ((List.zipWith (fun k h => p.mul (osTaps.getD (4 * k + ph) 0) h) (List.range 16) uph).foldl p.add F32.zero)
      exec (.osUp ch x) s = .next (State.complete
        { s with os := { s.os with ch := s.os.ch.set ch.toNat { t with uph := uph } } } [up 0, up 1, up 2, up 3]) ∧
      exec (.osDown ch u0 u1 u2 u3) s = .next (State.complete
        { s with os := { s.os with ch := s.os.ch.set ch.toNat { t with dnh := dnh } } }
        [(List.zipWith (fun j h => p.mul (osTaps.getD j 0) h) (List.range 64) dnh).foldl p.add F32.zero])) ∧
    (osTaps.length = 64 ∧ (∀ n, n < 64 → osTaps[63 - n]? = osTaps[n]?) ∧
      osTaps.take 32 =
        [0x00000000, 0xB71152BB, 0xB817D8CA, 0xB815030D, 0x388C7477, 0x398D5539, 0x39DA4F16, 0x39849842,
         0xB9BB3301, 0xBA9AF33D, 0xBACFA39F, 0xBA622724, 0x3A924B67, 0x3B6156ED, 0x3B8E0F61, 0x3B12D856,
         0xBB3592AB, 0xBC0673A5, 0xBC23DFE3, 0xBBA497A1, 0x3BC6C4FF, 0x3C90899F, 0x3CAE0D48, 0x3C2DF2EF,
         0xBC52DFE4, 0xBD1BB2FA, 0xBD4167A9, 0xBCCC1485, 0x3D07947B, 0x3DEAD313, 0x3E46E97D, 0x3E7933A4])

/-- `LIM.PROC`: the four-point peak estimate on the samples before the cursor, instantaneous attack, exponential release,
the gain on the delayed sample (rule R354). -/
def Obligations.LimiterGainOnTheDelayedSample : Prop :=
  ∀ (s : State) (ch : BitVec 4) (x : Word),
    encode (.limProc ch x) = [rowWord 0x0F200000 ch 0, x] ∧
    s.turnsAway (.limProc ch x) (channelOk s.params ch) s.lim.life ∧
    (ch.toNat < s.params.nch → s.lim.life.active = true → s.lim.life.configured = true →
      let p := s.ctx
      let c := s.lim.C
      let t := s.lim.ch.getD ch.toNat ⟨0, F32.one, Memory.sized 0⟩
      let m := t.lb.write t.wpos.toNat x
      let tp := p.add (p.add (p.add (p.mul 0xBD800000 (t.lb.back t.wpos 3)) (p.mul 0x3F100000 (t.lb.back t.wpos 2)))
        (p.mul 0x3F100000 (t.lb.back t.wpos 1))) (p.mul 0xBD800000 x)
      let peak := F32.fmax (F32.abs x) (F32.abs tp)
      let tgt := if F32.lt c.ceilLin peak then p.div c.ceilLin peak else F32.one
      let genv := if F32.lt tgt t.genv then tgt else p.add (p.mul c.rel (p.sub t.genv tgt)) tgt
      exec (.limProc ch x) s = .next (State.complete
        { s with lim := { s.lim with ch := (s.lim.ch.set ch.toNat
          ⟨BitVec.ofNat 32 ((t.wpos.toNat + 1) % t.lb.cap), genv, m⟩) } }
        [p.mul (m.back t.wpos c.la.toNat) genv]))

/-- A ring of `cap` cells returns, `k` samples back from its cursor, the word written `k` samples ago, for every `k` up to
its capacity (rules R84, R85). -/
def Obligations.RingReturnsTheSampleWrittenBefore : Prop :=
  ∀ (m : Memory) (w x : Word) (xs : List Word), m.wf = true → w.toNat < m.cap → m.cap ≤ 2 ^ 32 →
    xs.length < m.cap →
    (ringRun m w (x :: xs)).1.back (ringRun m w (x :: xs)).2 (xs.length + 1) = x

/-! ### XN (rules R374 to R376) -/

/-- `XN.ACC`: six one-pole stores of its channel, the saturating count, the peak and the four sums; it returns no word
(rule R374). -/
def Obligations.SupervisorGathersStatistics : Prop :=
  ∀ (s : State) (ch : BitVec 4) (x : Word),
    encode (.xnAcc ch x) = [rowWord 0x10200000 ch 0, x] ∧
    s.turnsAway (.xnAcc ch x) (channelOk s.params ch) s.xn.life ∧
    (ch.toNat < s.params.nch → s.xn.life.active = true → s.xn.life.configured = true →
      let p := s.ctx
      let k := s.xn.klp
      let a := s.xn.acc
      let l := s.xn.lps.getD ch.toNat ⟨0, 0, 0, 0, 0, 0⟩
      let pole := fun k v : F32 => p.add v (p.mul k (p.sub x v))
      let l' : Six := ⟨pole k.v0 l.v0, pole k.v1 l.v1, pole k.v2 l.v2, pole k.v3 l.v3, pole k.v4 l.v4, pole k.v5 l.v5⟩
      let mud := p.sub l'.v1 l'.v0
      let core := p.sub l'.v3 l'.v2
      let scr := p.sub l'.v5 l'.v4
      exec (.xnAcc ch x) s = .next (State.complete
        { s with xn := { s.xn with
          lps := s.xn.lps.set ch.toNat l'
          acc := ⟨if a.n.toNat < 0xFFFFFFFF then a.n + 1 else a.n, p.add a.sumsq (p.mul x x),
            F32.fmax (F32.abs x) a.peak, p.add a.sumsqMud (p.mul mud mud), p.add a.sumsqCore (p.mul core core),
            p.add a.sumsqScr (p.mul scr scr)⟩ } } []))

/-- `XN.ANALYZE`: an empty block changes nothing; otherwise the five outputs are drawn from the sums, the sums are
cleared, and in both cases the five outputs are returned (rule R375). -/
def Obligations.SupervisorAnalyzesTheBlock : Prop :=
  ∀ (s : State),
    encode .xnAnalyze = [0x10300000] ∧
    s.turnsAway .xnAnalyze true s.xn.life ∧
    (s.xn.life.active = true → s.xn.life.configured = true → s.xn.acc.n = 0 →
      exec .xnAnalyze s = .next (s.complete
        [s.xn.out.preGain, s.xn.out.alGainDb, s.xn.out.compThOffDb, s.xn.out.eqMudCutDb, s.xn.out.satDriveScale])) ∧
    (s.xn.life.active = true → s.xn.life.configured = true → s.xn.acc.n ≠ 0 →
      let p := s.ctx
      let a := s.xn.acc
      let o := s.xn.out
      let n := F32.ofNat a.n.toNat
      let rms := Num.sqrt (p.div a.sumsq n)
      let rmud := Num.sqrt (p.div a.sumsqMud n)
      let rcore := Num.sqrt (p.div a.sumsqCore n)
      let rscr := Num.sqrt (p.div a.sumsqScr n)
      let pt := if F32.lt p.xnClip a.peak then p.div p.xnClip a.peak else F32.one
      let pre := if F32.lt pt o.preGain then pt else p.add (p.mul p.xnPreRel (p.sub o.preGain pt)) pt
      let al := if F32.le p.xnSilence rms then
          F32.clamp (p.sub s.xn.P.targetRmsDb (p.mul F32.twenty (Num.log10 rms))) 0xC1400000 0x41400000
        else o.alGainDb
      let ex := p.sub (p.div rmud rcore) 0x3F99999A
      let mt := if F32.le p.xnSilence rcore && F32.lt F32.zero ex then
          F32.clamp (F32.neg (p.mul p.xnMudSlopeDb ex)) 0xC1100000 F32.zero
        else F32.zero
      let cut := if F32.lt mt o.eqMudCutDb then mt else p.add (p.mul p.xnMudRel (p.sub o.eqMudCutDb mt)) mt
      let sx := p.sub (p.div rscr rcore) 0x3F4CCCCD
      let st := if F32.le p.xnSilence rcore && F32.lt F32.zero sx then
          F32.clamp (p.sub F32.one (p.mul p.xnScrSlope sx)) p.xnScrMin F32.one
        else F32.one
      let sc := if F32.lt st o.satDriveScale then st else p.add (p.mul p.xnScrRec (p.sub o.satDriveScale st)) st
      exec .xnAnalyze s = .next (State.complete
        { s with xn := { s.xn with
          acc := ⟨0, F32.zero, F32.zero, F32.zero, F32.zero, F32.zero⟩, out := ⟨pre, al, al, cut, sc⟩ } }
        [pre, al, al, cut, sc]))

/-! ### PIPE (rules R386 to R396) -/

/-- `PIPE.RST`: `Sequence` inside a block, then `Param` for the rate; otherwise every unit is reset, the bracket units at
the rate inside the bracket, and PIPE's own registers take their reset values, while the P registers and `PIPE.STATUS`
keep theirs (rule R386). Both rates are asked to be acceptable, since with FTZ a quadrupled rate may flush to zero (log
entry 14). -/
def Obligations.PipeResetResetsEveryUnit : Prop :=
  ∀ (s : State) (os : Bool) (fs : Word),
    let fsb := if os then s.ctx.mul F32.four fs else fs
    (s.pipe.life.active = true → s.pipe.inBlock = true → exec (.pipeRst os fs) s = .next (s.raise .sequence)) ∧
    (¬(s.pipe.life.active = true ∧ s.pipe.inBlock = true) →
      ¬(F32.lt F32.zero fs = true ∧ F32.le fsb s.params.fsMax = true) →
      exec (.pipeRst os fs) s = .next (s.raise .param)) ∧
    (¬(s.pipe.life.active = true ∧ s.pipe.inBlock = true) → rateOk s.params fs = true → rateOk s.params fsb = true →
      ∃ t : State, exec (.pipeRst os fs) s = .next (t.complete []) ∧
        t.params = s.params ∧ t.port = s.port ∧ t.free = s.free ∧
        s.gate.rst s.ctx fsb = .ok t.gate ∧ s.agc.rst s.ctx fsb = .ok t.agc ∧ s.pitch.rst s.ctx fsb = .ok t.pitch ∧
        s.deess.rst s.ctx fsb = .ok t.deess ∧ t.bq = s.bq.map (Bq.reset s.ctx fsb) ∧
        t.svf = s.svf.map (Svf.reset s.ctx fsb) ∧ s.comp.rst s.ctx fsb = .ok t.comp ∧
        s.fet.rst s.ctx fsb = .ok t.fet ∧ s.sat.rst s.ctx fsb = .ok t.sat ∧
        s.env.rst s.ctx fs = .ok t.env ∧ s.dly.rst s.ctx fs = .ok t.dly ∧ s.rvs.rst s.ctx fs = .ok t.rvs ∧
        s.fdn.rst s.ctx fs = .ok t.fdn ∧ s.wid.rst s.ctx fs = .ok t.wid ∧ s.lim.rst s.ctx fs = .ok t.lim ∧
        s.xn.rst s.ctx fs = .ok t.xn ∧ t.os = s.os.rst s.ctx ∧
        t.unitsActive ∧
        t.pipe = { s.pipe with
          life := ⟨true, s.pipe.life.configured, fs⟩, L := ⟨0, 3, 0, 0, 0xFFFFFFFF⟩
          fs := fs, osEn := os, inBlock := false, latency := 0 })

/-- `PIPE.CFG` at any time, also inside a block: a word with a bit that has no meaning ends it with `Param`; otherwise the
five P registers are written and `CONFIGURED` is set, and nothing else changes (rule R387). -/
def Obligations.PipeConfigurationIsChecked : Prop :=
  ∀ (s : State) (en sel kind bands mud : Word),
    encode (.pipeCfg en sel kind bands mud) = [0x11100000, en, sel, kind, bands, mud] ∧
    ((en >>> 12 ≠ 0 ∨ sel >>> 2 ≠ 0 ∨
        (s.params.neq < 32 ∧ (kind >>> s.params.neq ≠ 0 ∨ bands >>> s.params.neq ≠ 0)) ∨
        (mud ≠ 0xFFFFFFFF ∧ s.params.neq ≤ mud.toNat)) →
      exec (.pipeCfg en sel kind bands mud) s = .next (s.raise .param)) ∧
    (¬(en >>> 12 ≠ 0 ∨ sel >>> 2 ≠ 0 ∨
        (s.params.neq < 32 ∧ (kind >>> s.params.neq ≠ 0 ∨ bands >>> s.params.neq ≠ 0)) ∨
        (mud ≠ 0xFFFFFFFF ∧ s.params.neq ≤ mud.toNat)) →
      exec (.pipeCfg en sel kind bands mud) s = .next (State.complete { s with pipe := { s.pipe with
        P := ⟨en, sel, kind, bands, mud⟩, life := { s.pipe.life with configured := true } } } []))

/-- `PIPE.FRAME` in a block whose enabled units are configured completes with one result word for every channel, on a
block with its instances and copies (rules R389, R393); before that it ends with `Inactive`, or with `Sequence` outside
a block. With every module disabled and no oversampling it returns its operands bit for bit and changes nothing (rule R390).
-/
def Obligations.PipeFrameCompletesInsideABlock : Prop :=
  ∀ (s : State) (xs : List Word), xs.length = s.params.nch →
    (s.pipe.life.active = false → exec (.pipeFrame xs) s = .next (s.raise .inactive)) ∧
    (s.pipe.life.active = true → s.pipe.inBlock = false → exec (.pipeFrame xs) s = .next (s.raise .sequence)) ∧
    (s.pipe.life.active = true → s.pipe.inBlock = true → s.copiesOk → s.unitsActive →
      s.selectedReady s.pipe.L = true →
      ∃ (t : State) (ys : List Word), exec (.pipeFrame xs) s = .next (State.complete t ys) ∧ ys.length = xs.length ∧ t.pipe = s.pipe) ∧
    (s.pipe.life.active = true → s.pipe.inBlock = true → s.pipe.L.en = 0 → s.pipe.osEn = false →
      exec (.pipeFrame xs) s = .next (s.complete xs))

/-- A frame leaves a unit whose stage is disabled, or that the configuration does not select, exactly as it was: registers,
cursors and ring cells. `ENV` belongs to no stage, and PIPE's own registers are not written (rules R389, R390, R392). -/
def Obligations.DisabledStageKeepsItsState : Prop :=
  ∀ (s t : State) (xs ys : List Word), exec (.pipeFrame xs) s = .next (State.complete t ys) →
    t.env = s.env ∧ t.pipe = s.pipe ∧
    (s.pipe.L.enabled .gate = false → t.gate = s.gate) ∧
    (s.pipe.L.enabled .agc = false → t.agc = s.agc) ∧
    (s.pipe.L.enabled .pitch = false → t.pitch = s.pitch) ∧
    (s.pipe.L.enabled .deess = false → t.deess = s.deess) ∧
    (∀ b, s.pipe.L.enabled .eq = false ∨ s.pipe.L.bandEnabled b = false ∨ s.pipe.L.bandIsSvf b = true →
      t.bq[b]? = s.bq[b]?) ∧
    (∀ b, s.pipe.L.enabled .eq = false ∨ s.pipe.L.bandEnabled b = false ∨ s.pipe.L.bandIsSvf b = false →
      t.svf[b]? = s.svf[b]?) ∧
    (s.pipe.L.enabled .comp = false ∨ s.pipe.L.selectsFet = true → t.comp = s.comp) ∧
    (s.pipe.L.enabled .comp = false ∨ s.pipe.L.selectsFet = false → t.fet = s.fet) ∧
    (s.pipe.L.enabled .sat = false → t.sat = s.sat) ∧
    (s.pipe.osEn = false → t.os = s.os) ∧
    (s.pipe.L.enabled .dly = false → t.dly = s.dly) ∧
    (s.pipe.L.enabled .reverb = false ∨ s.pipe.L.selectsFdn = true → t.rvs = s.rvs) ∧
    (s.pipe.L.enabled .reverb = false ∨ s.pipe.L.selectsFdn = false → t.fdn = s.fdn) ∧
    (s.pipe.L.enabled .wid = false → t.wid = s.wid) ∧
    (s.pipe.L.enabled .lim = false → t.lim = s.lim) ∧
    (s.pipe.L.enabled .xn = false → t.xn = s.xn)

/-- On a block of one channel, without oversampling, a frame with one stage enabled is that unit's PROC on channel 0; with
any stages enabled, they run in the order of rule R388, each on the word of the one before (rules R388, R389). On a block
of any number of channels, with and without oversampling, a frame is the pseudocode of rule R389 over the words
`v[0..NCH-1]`: the supervisor's tap and pre-gain on every channel; then channel by channel the bracket, four times
between `OS.UP` and `OS.DOWN` where it is oversampled, the delay and the reverb; then the widener on the pairs; then the
limiter; and the EQ is the chain of the enabled bands, each the SVF or the BQ instance (rule R392). The PROCs that the
frame runs are those of the units' own commands. The equalities hold in every state inside a block. Rule R389 says that no
PROC inside can raise, which `PIPE.BEGIN` ensures; where a WR to a latched register has enabled a unit that is not
configured, they say that the frame ends with the status of the inner PROC and without effect, and that end is the
model's reading, not the spec's (log entry 14). -/
def Obligations.OneStageFrameIsThatPROC : Prop :=
  (∀ (s : State) (x : Word), s.params.nch = 1 → s.pipe.life.active = true → s.pipe.inBlock = true →
    s.pipe.osEn = false →
    (s.pipe.L.en = 0x001 → exec (.pipeFrame [x]) s = exec (.gateProc 0 x) s) ∧
    (s.pipe.L.en = 0x002 → exec (.pipeFrame [x]) s = exec (.agcProc 0 x) s) ∧
    (s.pipe.L.en = 0x004 → exec (.pipeFrame [x]) s = exec (.pitchProc 0 x) s) ∧
    (s.pipe.L.en = 0x008 → exec (.pipeFrame [x]) s = exec (.deessProc 0 x) s) ∧
    (s.pipe.L.en = 0x020 → s.pipe.L.sel.getLsbD 0 = false → exec (.pipeFrame [x]) s = exec (.compProc 0 x) s) ∧
    (s.pipe.L.en = 0x020 → s.pipe.L.sel.getLsbD 0 = true → exec (.pipeFrame [x]) s = exec (.fetProc 0 x) s) ∧
    (s.pipe.L.en = 0x040 → exec (.pipeFrame [x]) s = exec (.satProc 0 x) s) ∧
    (s.pipe.L.en = 0x080 → exec (.pipeFrame [x]) s = exec (.dlyProc 0 x) s) ∧
    (s.pipe.L.en = 0x100 → s.pipe.L.sel.getLsbD 1 = false → exec (.pipeFrame [x]) s = exec (.rvsProc 0 x) s) ∧
    (s.pipe.L.en = 0x100 → s.pipe.L.sel.getLsbD 1 = true → exec (.pipeFrame [x]) s = exec (.fdnProc 0 x) s) ∧
    (s.pipe.L.en = 0x400 → exec (.pipeFrame [x]) s = exec (.limProc 0 x) s) ∧
    (let E := s.pipe.L.enabled
     let run := fun (on : Bool) (f : State → Nat → F32 → Except Raised (State × F32)) (r : State × F32) =>
       if on then f r.1 0 r.2 else Except.ok r
     exec (.pipeFrame [x]) s = conclude s (do
       let r ← run (E .xn) State.xnTap (s, x)
       let r ← run (E .gate) State.gateProc r
       let r ← run (E .agc) State.agcProc r
       let r ← run (E .pitch) State.pitchProc r
       let r ← run (E .deess) State.deessProc r
       let r ← run (E .eq) State.eqProc r
       let r ← run (E .comp) (if s.pipe.L.selectsFet then State.fetProc else State.compProc) r
       let r ← run (E .sat) State.satProc r
       let r ← run (E .dly) State.dlyProc r
       let r ← run (E .reverb) (if s.pipe.L.selectsFdn then State.fdnProc else State.rvsProc) r
       let r ← run (E .lim) State.limProc r
       pure (r.1, [r.2])))) ∧
  (∀ (s : State) (ch : BitVec 4) (idx : BitVec 8) (x u0 u1 u2 u3 : Word), ch.toNat < s.params.nch →
    let one := fun r : Except Raised (State × F32) => conclude s (do
      let q ← r
      pure (q.1, [q.2]))
    exec (.gateProc ch x) s = one (s.gateProc ch.toNat x) ∧ exec (.agcProc ch x) s = one (s.agcProc ch.toNat x) ∧
    exec (.pitchProc ch x) s = one (s.pitchProc ch.toNat x) ∧ exec (.deessProc ch x) s = one (s.deessProc ch.toNat x) ∧
    (idx.toNat < s.params.neq → exec (.bqProc ch idx x) s = one (s.bqProc ch.toNat idx.toNat x) ∧
      exec (.svfProc ch idx x) s = one (s.svfProc ch.toNat idx.toNat x)) ∧
    exec (.compProc ch x) s = one (s.compProc ch.toNat x) ∧ exec (.fetProc ch x) s = one (s.fetProc ch.toNat x) ∧
    exec (.satProc ch x) s = one (s.satProc ch.toNat x) ∧ exec (.dlyProc ch x) s = one (s.dlyProc ch.toNat x) ∧
    exec (.rvsProc ch x) s = one (s.rvsProc ch.toNat x) ∧ exec (.fdnProc ch x) s = one (s.fdnProc ch.toNat x) ∧
    exec (.limProc ch x) s = one (s.limProc ch.toNat x) ∧
    exec (.osUp ch x) s = conclude s (do
      let (t, y0, y1, y2, y3) ← s.osUp ch.toNat x
      pure (t, [y0, y1, y2, y3])) ∧
    exec (.osDown ch u0 u1 u2 u3) s = one (s.osDown ch.toNat u0 u1 u2 u3) ∧
    exec (.xnAcc ch x) s = conclude s (do
      let t ← s.xnAcc ch.toNat x
      pure (t, [])) ∧
    (ch.toNat % 2 = 0 → ch.toNat + 1 < s.params.nch → exec (.widProc ch u0 u1) s = conclude s (do
      let (t, l, r) ← s.widProc (ch.toNat / 2) u0 u1
      pure (t, [l, r])))) ∧
  (∀ (s : State) (xs : List Word), xs.length = s.params.nch → s.pipe.life.active = true → s.pipe.inBlock = true →
    let L := s.pipe.L
    let E := fun k : Nat => L.en.getLsbD k
    let run := fun (on : Bool) (f : State → Nat → F32 → Except Raised (State × F32)) (c : Nat) (r : State × F32) =>
      if on then f r.1 c r.2 else Except.ok r
    let band := fun (b : Nat) (s : State) (c : Nat) (x : F32) =>
      if L.eqKind.getLsbD b then s.svfProc c b x else s.bqProc c b x
    let eq := fun (s : State) (c : Nat) (x : F32) =>
      (List.range s.params.neq).foldlM (fun r b => run (L.eqBandEn.getLsbD b) (band b) c r) (s, x)
    let bracket := fun (c : Nat) (r : State × F32) => (do
      let r ← run (E 0) State.gateProc c r
      let r ← run (E 1) State.agcProc c r
      let r ← run (E 2) State.pitchProc c r
      let r ← run (E 3) State.deessProc c r
      let r ← run (E 4) eq c r
      let r ← run (E 5) (if L.sel.getLsbD 0 then State.fetProc else State.compProc) c r
      run (E 6) State.satProc c r : Except Raised (State × F32))
    let channel := fun (c : Nat) (r : State × F32) => (do
      let r ← if s.pipe.osEn then (do
          let (t, u0, u1, u2, u3) ← r.1.osUp c r.2
          let r0 ← bracket c (t, u0)
          let r1 ← bracket c (r0.1, u1)
          let r2 ← bracket c (r1.1, u2)
          let r3 ← bracket c (r2.1, u3)
          r3.1.osDown c r0.2 r1.2 r2.2 r3.2)
        else bracket c r
      let r ← run (E 7) State.dlyProc c r
      run (E 8) (if L.sel.getLsbD 1 then State.fdnProc else State.rvsProc) c r : Except Raised (State × F32))
    let tap := fun (c : Nat) (r : State × F32) => (do
      let t ← r.1.xnAcc c r.2
      pure (t, s.ctx.mul r.2 s.xn.out.preGain) : Except Raised (State × F32))
    let each := fun (f : Nat → State × F32 → Except Raised (State × F32)) (r : State × List F32) =>
      (List.range s.params.nch).foldlM (fun r c => (do
        let q ← f c (r.1, r.2.getD c 0)
        pure (q.1, r.2.set c q.2) : Except Raised (State × List F32))) r
    let pairs := fun r : State × List F32 =>
      (List.range (s.params.nch / 2)).foldlM (fun r i => (do
        let (t, l, q) ← r.1.widProc i (r.2.getD (2 * i) 0) (r.2.getD (2 * i + 1) 0)
        pure (t, (r.2.set (2 * i) l).set (2 * i + 1) q) : Except Raised (State × List F32))) r
    exec (.pipeFrame xs) s = conclude s (do
      let r ← if E 11 then each tap (s, xs) else Except.ok (s, xs)
      let r ← each channel r
      let r ← if E 9 then pairs r else Except.ok r
      if E 10 then each (run true State.limProc) r else Except.ok r))

/-- `PIPE.BEGIN`: its checks in order; then the Pipeline Configuration is latched, the block begins, the reported latency
is computed, and the supervisor's consumers are driven while its bit is set, returned to neutral when the bit falls, and
untouched when it has been clear all along. The instances of BQ and SVF are what the `GOFF`s leave, whole: an old mud
band, where the band changes, is given the offset 0.0; then the new one is given the mud cut, or 0.0, or nothing; of an
instance that is given an offset only that and, if it is configured, its coefficients change (rules R177, R186, R391,
R393, R470). It completes on every state that passes the checks and meets the invariants of the block. Then the check of
rule R393 spelled out: which units a configuration selects, by its bits, and that each of them is configured. -/
def Obligations.PipeBeginLatchesTheConfiguration : Prop :=
  ∀ (s : State),
    (s.pipe.life.active = false → exec .pipeBegin s = .next (s.raise .inactive)) ∧
    (s.pipe.life.active = true → s.pipe.life.configured = false → exec .pipeBegin s = .next (s.raise .unconfigured)) ∧
    (s.pipe.life.active = true → s.pipe.life.configured = true → s.pipe.inBlock = true →
      exec .pipeBegin s = .next (s.raise .sequence)) ∧
    (s.pipe.life.active = true → s.pipe.life.configured = true → s.pipe.inBlock = false →
      s.selectedReady s.pipe.P = false → exec .pipeBegin s = .next (s.raise .unconfigured)) ∧
    (s.pipe.life.active = true → s.pipe.life.configured = true → s.pipe.inBlock = false →
      s.selectedReady s.pipe.P = true → s.copiesOk → s.unitsActive → s.latchedBandOk → s.pipeLegal →
      ∃ t : State, exec .pipeBegin s = .next (t.complete []) ∧
        t.pipe = { s.pipe with
          L := s.pipe.P, inBlock := true
          latency := (if s.pipe.osEn then 16 else 0) +
            (if s.pipe.P.en.getLsbD 10 then s.lim.C.la else 0) } ∧
        t.params = s.params ∧ t.port = s.port ∧ t.env = s.env ∧ t.gate = s.gate ∧ t.deess = s.deess ∧
        t.comp = s.comp ∧ t.pitch = s.pitch ∧ t.dly = s.dly ∧ t.rvs = s.rvs ∧ t.fdn = s.fdn ∧ t.wid = s.wid ∧
        t.os = s.os ∧ t.lim = s.lim ∧ t.xn = s.xn ∧
        (s.pipe.P.en.getLsbD 11 = true →
          t.agc = { s.agc with K := ⟨true, s.xn.out.alGainDb, s.ctx.db2lin s.xn.out.alGainDb⟩ } ∧
          t.fet = { s.fet with K := ⟨s.xn.out.compThOffDb, fetThLin s.ctx s.xn.out.compThOffDb⟩ } ∧
          t.sat = { s.sat with driveScale := s.xn.out.satDriveScale }) ∧
        (s.pipe.P.en.getLsbD 11 = false → s.pipe.L.en.getLsbD 11 = true →
          t.agc = { s.agc with K := ⟨false, F32.zero, s.ctx.db2lin F32.zero⟩ } ∧
          t.fet = { s.fet with K := ⟨F32.zero, fetThLin s.ctx F32.zero⟩ } ∧
          t.sat = { s.sat with driveScale := F32.one }) ∧
        (s.pipe.P.en.getLsbD 11 = false → s.pipe.L.en.getLsbD 11 = false →
          t.agc = s.agc ∧ t.fet = s.fet ∧ t.sat = s.sat) ∧
        (let giveBq := fun (g : Word) (u : Bq) => { u with
           gainOffDb := g
           C := if u.life.configured then
               bqCoeffs s.ctx u.P.type u.P.freq u.P.q (s.ctx.add u.P.gainDb g) u.life.fsEff
             else u.C }
         let giveSvf := fun (g : Word) (u : Svf) => { u with
           gainOffDb := g
           C := if u.life.configured then svfCoeffs s.ctx u.P.freq u.P.q (s.ctx.add u.P.gainDb g) u.life.fsEff
             else u.C }
         let give := fun (b g : Word) (l : List Bq × List Svf) =>
           if b = 0xFFFFFFFF then l else (l.1.modify b.toNat (giveBq g), l.2.modify b.toNat (giveSvf g))
         let new := s.pipe.P.eqMudBand
         let old := s.pipe.L.eqMudBand
         let released := if old = new then (s.bq, s.svf) else give old F32.zero (s.bq, s.svf)
         (t.bq, t.svf) =
           if s.pipe.P.en.getLsbD 11 then give new s.xn.out.eqMudCutDb released
           else if s.pipe.L.en.getLsbD 11 then give new F32.zero released
           else released)) ∧
    (∀ c : PipeP, s.selectedReady c = true ↔
      (c.en.getLsbD 0 = true → s.gate.life.configured = true) ∧
      (c.en.getLsbD 1 = true → s.agc.life.configured = true) ∧
      (c.en.getLsbD 2 = true → s.pitch.life.configured = true) ∧
      (c.en.getLsbD 3 = true → s.deess.life.configured = true) ∧
      (c.en.getLsbD 4 = true → ∀ b, b < s.params.neq → c.eqBandEn.getLsbD b = true →
        (c.eqKind.getLsbD b = true → (s.svfAt b).life.configured = true) ∧
        (c.eqKind.getLsbD b = false → (s.bqAt b).life.configured = true)) ∧
      (c.en.getLsbD 5 = true → c.sel.getLsbD 0 = false → s.comp.life.configured = true) ∧
      (c.en.getLsbD 5 = true → c.sel.getLsbD 0 = true → s.fet.life.configured = true) ∧
      (c.en.getLsbD 6 = true → s.sat.life.configured = true) ∧
      (c.en.getLsbD 7 = true → s.dly.life.configured = true) ∧
      (c.en.getLsbD 8 = true → c.sel.getLsbD 1 = false → s.rvs.life.configured = true) ∧
      (c.en.getLsbD 8 = true → c.sel.getLsbD 1 = true → s.fdn.life.configured = true) ∧
      (c.en.getLsbD 9 = true → s.wid.life.configured = true) ∧
      (c.en.getLsbD 10 = true → s.lim.life.configured = true) ∧
      (c.en.getLsbD 11 = true → s.xn.life.configured = true))

/-- `PIPE.END`: `Inactive`, then `Sequence` outside a block; with the supervisor's latched bit clear the block just ends;
with the bit set and XN ready its analysis is made and handed to the consumers; the mud band's instances of BQ and SVF
are what the `GOFF`s leave, whole: the offset and, where the instance is configured, its coefficients, all else kept
(rules R177, R186, R391, R394). -/
def Obligations.PipeEndAnalyzesAndDistributes : Prop :=
  ∀ (s : State),
    (s.pipe.life.active = false → exec .pipeEnd s = .next (s.raise .inactive)) ∧
    (s.pipe.life.active = true → s.pipe.inBlock = false → exec .pipeEnd s = .next (s.raise .sequence)) ∧
    (s.pipe.life.active = true → s.pipe.inBlock = true → s.pipe.L.en.getLsbD 11 = false →
      exec .pipeEnd s = .next (State.complete { s with pipe := { s.pipe with inBlock := false } } [])) ∧
    (s.pipe.life.active = true → s.pipe.inBlock = true → s.pipe.L.en.getLsbD 11 = true → s.copiesOk →
      s.unitsActive → s.xn.life.configured = true → s.latchedBandOk →
      ∃ (t : State) (u : Xn), s.xn.analyze s.ctx = .ok u ∧ exec .pipeEnd s = .next (t.complete []) ∧
        t.params = s.params ∧ t.port = s.port ∧ t.pipe = { s.pipe with inBlock := false } ∧ t.xn = u ∧
        t.env = s.env ∧ t.gate = s.gate ∧ t.deess = s.deess ∧ t.comp = s.comp ∧ t.pitch = s.pitch ∧ t.dly = s.dly ∧
        t.rvs = s.rvs ∧ t.fdn = s.fdn ∧ t.wid = s.wid ∧ t.os = s.os ∧ t.lim = s.lim ∧
        t.agc = { s.agc with K := ⟨true, u.out.alGainDb, s.ctx.db2lin u.out.alGainDb⟩ } ∧
        t.fet = { s.fet with K := ⟨u.out.compThOffDb, fetThLin s.ctx u.out.compThOffDb⟩ } ∧
        t.sat = { s.sat with driveScale := u.out.satDriveScale } ∧
        (let cut := u.out.eqMudCutDb
         let b := s.pipe.L.eqMudBand
         (t.bq, t.svf) = if b = 0xFFFFFFFF then (s.bq, s.svf) else
           (s.bq.modify b.toNat (fun u => { u with
              gainOffDb := cut
              C := if u.life.configured then
                  bqCoeffs s.ctx u.P.type u.P.freq u.P.q (s.ctx.add u.P.gainDb cut) u.life.fsEff
                else u.C }),
            s.svf.modify b.toNat (fun u => { u with
              gainOffDb := cut
              C := if u.life.configured then svfCoeffs s.ctx u.P.freq u.P.q (s.ctx.add u.P.gainDb cut) u.life.fsEff
                else u.C }))))

/-- `PIPE.DEINIT`: `Sequence` inside a block; otherwise `ACTIVE` of every unit and instance, PIPE included, is cleared,
and nothing else changes, `CONFIGURED`, P registers and `PIPE.STATUS` included (rule R396). That the other registers and
the ring cells, which by rule R396 hold no value then, keep their contents in the state is the model's choice (log entry
18). -/
def Obligations.PipeDeinitClearsActiveOnly : Prop :=
  ∀ (s : State),
    (s.pipe.life.active = true → s.pipe.inBlock = true → exec .pipeDeinit s = .next (s.raise .sequence)) ∧
    (¬(s.pipe.life.active = true ∧ s.pipe.inBlock = true) →
      exec .pipeDeinit s = .next (State.complete { s with
        env := { s.env with life := { s.env.life with active := false } }
        bq := s.bq.map (fun u => { u with life := { u.life with active := false } })
        svf := s.svf.map (fun u => { u with life := { u.life with active := false } })
        gate := { s.gate with life := { s.gate.life with active := false } }
        agc := { s.agc with life := { s.agc.life with active := false } }
        deess := { s.deess with life := { s.deess.life with active := false } }
        comp := { s.comp with life := { s.comp.life with active := false } }
        fet := { s.fet with life := { s.fet.life with active := false } }
        sat := { s.sat with life := { s.sat.life with active := false } }
        pitch := { s.pitch with life := { s.pitch.life with active := false } }
        dly := { s.dly with life := { s.dly.life with active := false } }
        rvs := { s.rvs with life := { s.rvs.life with active := false } }
        fdn := { s.fdn with life := { s.fdn.life with active := false } }
        wid := { s.wid with life := { s.wid.life with active := false } }
        os := { s.os with life := { s.os.life with active := false } }
        lim := { s.lim with life := { s.lim.life with active := false } }
        xn := { s.xn with life := { s.xn.life with active := false } }
        pipe := { s.pipe with life := { s.pipe.life with active := false } } } []))

/-! ### SAVE and RESTORE (rules R404 to R406) -/

/-- `PIPE.SAVE`: `Sequence` inside a block, then `Unconfigured` unless every unit and instance is configured; otherwise
it returns the P registers, and only those, in the order of rule R404, and changes nothing. Then what it asks to be
configured, unit by unit: every instance of BQ and SVF, and PIPE, among them; the bit of OS, which has no parameters, is
hard-wired to 1 (rule R33). -/
def Obligations.SaveReturnsTheParametersInOrder : Prop :=
  ∀ (s : State),
    encode .pipeSave = [0x11300300] ∧
    (s.pipe.life.active = true → s.pipe.inBlock = true → exec .pipeSave s = .next (s.raise .sequence)) ∧
    (¬(s.pipe.life.active = true ∧ s.pipe.inBlock = true) → s.allConfigured = false →
      exec .pipeSave s = .next (s.raise .unconfigured)) ∧
    (¬(s.pipe.life.active = true ∧ s.pipe.inBlock = true) → s.allConfigured = true →
      let bits := fun (n : Nat) (w : Word) => (List.range n).map (fun b => if w.getLsbD b then (1 : Word) else 0)
      exec .pipeSave s = .next (s.complete (
        [s.env.P.tAtt, s.env.P.tRel] ++
        s.bq.flatMap (fun u => [bqTypeWord u.P.type, u.P.freq, u.P.q, u.P.gainDb]) ++
        s.svf.flatMap (fun u => [svfTypeWord u.P.type, u.P.freq, u.P.q, u.P.gainDb]) ++
        [s.gate.P.threshDb, s.gate.P.rangeDb, s.gate.P.attackMs, s.gate.P.holdMs, s.gate.P.releaseMs, s.gate.P.hystDb] ++
        [s.agc.P.targetDb, s.agc.P.rangeDb, s.agc.P.attackMs, s.agc.P.releaseMs] ++
        [s.deess.P.freq, s.deess.P.threshDb, s.deess.P.ratio, s.deess.P.attackMs, s.deess.P.releaseMs,
          s.deess.P.maxRedDb] ++
        [s.comp.P.threshDb, s.comp.P.ratio, s.comp.P.kneeDb, s.comp.P.attackMs, s.comp.P.releaseMs,
          s.comp.P.makeupDb] ++
        [s.fet.P.inputDb, s.fet.P.ratio, s.fet.P.attackMs, s.fet.P.releaseMs,
          if s.fet.P.autoMakeup then (1 : Word) else 0] ++
        [s.sat.P.drive, satTypeWord s.sat.P.type] ++
        [s.pitch.P.amount, s.pitch.P.windowMs] ++
        [s.dly.P.timeMs, s.dly.P.feedback, s.dly.P.mix] ++
        [s.rvs.P.room, s.rvs.P.damp, s.rvs.P.mix] ++
        [s.fdn.P.size, s.fdn.P.damp, s.fdn.P.mix] ++
        [s.wid.P.width, s.wid.P.bassFreq, if s.wid.P.monoBass then (1 : Word) else 0] ++
        [s.lim.P.ceilingDb, s.lim.P.releaseMs, s.lim.P.lookaheadMs] ++
        [s.xn.P.targetRmsDb, s.xn.P.fMudLo, s.xn.P.fMudHi, s.xn.P.fCoreLo, s.xn.P.fCoreHi, s.xn.P.fScrLo,
          s.xn.P.fScrHi] ++
        bits 12 s.pipe.P.en ++ bits 2 s.pipe.P.sel ++ bits s.params.neq s.pipe.P.eqKind ++
        bits s.params.neq s.pipe.P.eqBandEn ++ [s.pipe.P.eqMudBand]))) ∧
    (s.allConfigured = true ↔
      s.env.life.configured = true ∧ (∀ u ∈ s.bq, u.life.configured = true) ∧ (∀ u ∈ s.svf, u.life.configured = true) ∧
      s.gate.life.configured = true ∧ s.agc.life.configured = true ∧ s.deess.life.configured = true ∧
      s.comp.life.configured = true ∧ s.fet.life.configured = true ∧ s.sat.life.configured = true ∧
      s.pitch.life.configured = true ∧ s.dly.life.configured = true ∧ s.rvs.life.configured = true ∧
      s.fdn.life.configured = true ∧ s.wid.life.configured = true ∧ s.lim.life.configured = true ∧
      s.xn.life.configured = true ∧ s.pipe.life.configured = true)

/-- Which streams `PIPE.RESTORE` accepts: of the `70 + 10·NEQ` words, those whose type words, flag words and mud band are
in range, at their places in the order of rule R404; every other word is accepted as it comes (rule R405). -/
def Obligations.RestoreAcceptsWellFormedStreams : Prop :=
  ∀ (p : Params) (ws : List Word), ws.length = 70 + 10 * p.neq →
    ((parseSaved p ws).isSome = true ↔
      (∀ b, b < p.neq → (ws.getD (2 + 4 * b) 0).toNat ≤ 4) ∧
      (∀ b, b < p.neq → (ws.getD (2 + 4 * p.neq + 4 * b) 0).toNat ≤ 2) ∧
      (ws.getD (28 + 8 * p.neq) 0).toNat ≤ 1 ∧
      (ws.getD (30 + 8 * p.neq) 0).toNat ≤ 1 ∧
      (ws.getD (44 + 8 * p.neq) 0).toNat ≤ 1 ∧
      (∀ j, j < 14 + 2 * p.neq → (ws.getD (55 + 8 * p.neq + j) 0).toNat ≤ 1) ∧
      (ws.getD (69 + 10 * p.neq) 0 = 0xFFFFFFFF ∨ (ws.getD (69 + 10 * p.neq) 0).toNat < p.neq))

/-- `PIPE.RESTORE` is all or nothing: `Sequence` inside a block; `Restore` and no other effect for a count other than
NSAVE or a stream with a word out of range; otherwise every P register takes its word, every unit and instance is
configured, and the coefficients of the active ones are recomputed (rules R405, R425). -/
def Obligations.RestoreIsAllOrNothing : Prop :=
  ∀ (s : State) (n : Word) (ws : List Word),
    (s.pipe.life.active = true → s.pipe.inBlock = true → exec (.pipeRestore n ws) s = .next (s.raise .sequence)) ∧
    (¬(s.pipe.life.active = true ∧ s.pipe.inBlock = true) →
      (n.toNat ≠ 70 + 10 * s.params.neq ∨ parseSaved s.params ws = none) →
      exec (.pipeRestore n ws) s = .next (s.raise .restore)) ∧
    (∀ v, ¬(s.pipe.life.active = true ∧ s.pipe.inBlock = true) → n.toNat = 70 + 10 * s.params.neq →
      parseSaved s.params ws = some v → s.copiesOk →
      ∃ t : State, exec (.pipeRestore n ws) s = .next (t.complete []) ∧
        t.saved = v ∧ t.allConfigured = true ∧ t.rings = s.rings ∧
        t.pipe = { s.pipe with P := v.pipe, life := { s.pipe.life with configured := true } } ∧
        t.bq = List.zipWith (Bq.cfg s.ctx) s.bq v.bq ∧ t.svf = List.zipWith (Svf.cfg s.ctx) s.svf v.svf ∧
        t.env = s.env.cfg s.ctx v.env ∧ t.gate = s.gate.cfg s.ctx v.gate ∧ t.agc = s.agc.cfg s.ctx v.agc ∧
        t.deess = s.deess.cfg s.ctx v.deess ∧ t.comp = s.comp.cfg s.ctx v.comp ∧ t.fet = s.fet.cfg s.ctx v.fet ∧
        t.sat = s.sat.cfg v.sat ∧ t.pitch = s.pitch.cfg s.ctx v.pitch ∧ t.dly = s.dly.cfg s.ctx v.dly ∧
        t.rvs = s.rvs.cfg v.rvs ∧ t.fdn = s.fdn.cfg s.ctx v.fdn ∧ t.wid = s.wid.cfg s.ctx v.wid ∧ t.os = s.os ∧
        t.lim = s.lim.cfg s.ctx v.lim ∧ t.xn = s.xn.cfg s.ctx v.xn)

/-- The round trip: RESTORE of the words that SAVE returned completes and leaves every P register with the bits it had
(rules R404, R405, R406). -/
def Obligations.SaveThenRestoreKeepsTheParameters : Prop :=
  ∀ (s : State) (ws : List Word), s.params.wf = true → s.copiesOk → s.pipeLegal →
    exec .pipeSave s = .next (s.complete ws) →
    ∃ t : State, exec (.pipeRestore (BitVec.ofNat 32 ws.length) ws) s = .next (t.complete []) ∧ t.saved = s.saved

/-! ### Numbers (rules R13, R173, R178, R376) -/

/-- The arithmetic of rules R13 and R14. The rounding: no finite binary32 magnitude is nearer to the exact `n / d` (in units
of the smallest subnormal) than the one chosen, and at a tie the chosen one is even. The four operations: on finite
operands the exact result rounded once (`roundsTo`: overflow to an infinity, FTZ), with the signs of zeros; on a zero
divisor, an infinity or a NaN what IEEE 754 says, every NaN quiet. The helpers: the comparisons, `fabs`, `fmax`, `fmin`,
`clamp`, `floor`, `to_u32` and `to_f32`. That FTZ looks at the rounded result and spares operands is the model's reading
(log entry 10); that `floor` keeps the sign of a zero, and gives `+0.0` between 0 and 1, is presumed from IEEE 754 (log
entry 11). -/
def Obligations.RoundingIsToTheNearest : Prop :=
  (∀ (n d m : Nat), 0 < d → roundMag n d < 0x7F800000 → m < 0x7F800000 →
    let r : F32 := F32.ofParts false (roundMag n d)
    let v : F32 := F32.ofParts false m
    ((F32.units r * d : Int) - n).natAbs ≤ ((F32.units v * d : Int) - n).natAbs ∧
    (((F32.units r * d : Int) - n).natAbs = ((F32.units v * d : Int) - n).natAbs → m ≠ roundMag n d →
      roundMag n d % 2 = 0)) ∧
  (∀ (p : Ctx) (a b : F32), F32.isFinite a = true → F32.isFinite b = true →
    let neg := F32.sign a != F32.sign b
    let sum := F32.signedUnits a + F32.signedUnits b
    (sum = 0 → p.add a b = if F32.sign a && F32.sign b then F32.negZero else F32.zero) ∧
    (sum ≠ 0 → roundsTo p.ftz (decide (sum < 0)) sum.natAbs 1 (p.add a b)) ∧
    roundsTo p.ftz neg (F32.units a * F32.units b) (2 ^ 149) (p.mul a b) ∧
    (F32.isZero b = false → roundsTo p.ftz neg (F32.units a * 2 ^ 149) (F32.units b) (p.div a b)) ∧
    (F32.isZero b = true → F32.isZero a = false → p.div a b = F32.ofParts neg 0x7F800000) ∧
    (F32.isZero b = true → F32.isZero a = true → quietNaN (p.div a b))) ∧
  (∀ (p : Ctx) (a b : F32),
    let neg := F32.sign a != F32.sign b
    let inf := F32.ofParts neg 0x7F800000
    p.sub a b = p.add a (F32.neg b) ∧
    (F32.isNaN a = true ∨ F32.isNaN b = true →
      quietNaN (p.add a b) ∧ quietNaN (p.mul a b) ∧ quietNaN (p.div a b)) ∧
    (F32.isNaN a = false → F32.isNaN b = false →
      (F32.isInf a = true → F32.isInf b = true →
        (neg = true → quietNaN (p.add a b)) ∧ (neg = false → p.add a b = a) ∧
        p.mul a b = inf ∧ quietNaN (p.div a b)) ∧
      (F32.isInf a = true → F32.isInf b = false → p.add a b = a ∧ p.div a b = inf) ∧
      (F32.isInf a = false → F32.isInf b = true → p.add a b = b ∧ p.div a b = F32.ofParts neg 0) ∧
      (F32.isInf a != F32.isInf b →
        (F32.isZero a = false → F32.isZero b = false → p.mul a b = inf) ∧
        (F32.isZero a = true ∨ F32.isZero b = true → quietNaN (p.mul a b))))) ∧
  (∀ a b lo hi : F32,
    (F32.isNaN a = true ∨ F32.isNaN b = true → F32.lt a b = false ∧ F32.le a b = false) ∧
    (F32.isFinite a = true → F32.isFinite b = true →
      (F32.lt a b = true ↔ F32.signedUnits a < F32.signedUnits b) ∧
      (F32.le a b = true ↔ F32.signedUnits a ≤ F32.signedUnits b)) ∧
    (F32.isNaN a = false →
      (F32.lt a F32.posInf = true ↔ a ≠ F32.posInf) ∧ F32.le a F32.posInf = true ∧
      (F32.lt F32.negInf a = true ↔ a ≠ F32.negInf) ∧ F32.le F32.negInf a = true ∧
      F32.lt F32.posInf a = false ∧ (F32.le F32.posInf a = true ↔ a = F32.posInf) ∧
      F32.lt a F32.negInf = false ∧ (F32.le a F32.negInf = true ↔ a = F32.negInf)) ∧
    F32.abs a = F32.ofParts false (F32.mag a) ∧ F32.neg a = F32.ofParts (!F32.sign a) (F32.mag a) ∧
    F32.fmax a b = (if F32.lt b a then a else b) ∧ F32.fmin a b = (if F32.lt a b then a else b) ∧
    F32.clamp a lo hi = F32.fmin (F32.fmax a lo) hi) ∧
  (∀ a : F32,
    (F32.isFinite a = true →
      F32.isFinite (F32.floor a) = true ∧ F32.signedUnits (F32.floor a) = F32.signedUnits a / 2 ^ 149 * 2 ^ 149 ∧
      F32.sign (F32.floor a) = F32.sign a ∧
      (F32.toU32 a).toNat = if F32.sign a then 0 else min 0xFFFFFFFF (F32.units a / 2 ^ 149)) ∧
    (F32.isFinite a = false → F32.floor a = a ∧ F32.toU32 a = if a = F32.posInf then 0xFFFFFFFF else 0)) ∧
  (∀ n, n < 2 ^ 32 → nearestTo false (n * 2 ^ 149) 1 (F32.ofNat n))

/-- The peaking biquad at gain `±0.0`: `B1 = A1` and `B2 = A2` bit for bit, and `B0 = 1.0` where the common divisor is
finite and not zero, whenever `alpha` is a number (rules R173, R178). Where `cos(w0)` is a NaN, `alpha` is infinite or the
divisor is 0, the quotients are NaNs, and that two of them made of the same operands in one command have the same bits is
the model's choice, not the spec's (log entry 6). -/
def Obligations.PeakingAtZeroGainIsNeutral : Prop :=
  ∀ (p : Ctx) (freq q gain fs : F32), F32.isZero gain = true →
    let w0 := p.div (p.mul (p.mul F32.two F32.pi) freq) fs
    let alpha := p.div (Num.sin w0) (p.mul F32.two (F32.fmax q 0x3DCCCCCD))
    F32.isNaN alpha = false →
      (bqCoeffs p .peaking freq q gain fs).b1 = (bqCoeffs p .peaking freq q gain fs).a1 ∧
      (bqCoeffs p .peaking freq q gain fs).b2 = (bqCoeffs p .peaking freq q gain fs).a2 ∧
      (F32.isFinite (p.add F32.one (p.div alpha F32.one)) = true →
        F32.isZero (p.add F32.one (p.div alpha F32.one)) = false →
        (bqCoeffs p .peaking freq q gain fs).b0 = F32.one)
end

