-- ==== Sys2Proof/Laws/PerInstr.lean ====
section
/-! SUPPORT. The fields of the command word that the encoder writes, and, instruction by instruction, how many operand words the decoder counts behind it. -/

namespace Sys2Proof

/-! ### The fields of a command word (rule R111) -/

/-- The five fields of rule R111, taken out of their concatenation. -/
theorem append_fields (a : BitVec 8) (b c : BitVec 4) (d e : BitVec 8) :
    (a ++ b ++ c ++ d ++ e).extractLsb' 24 8 = a ∧ (a ++ b ++ c ++ d ++ e).extractLsb' 20 4 = b ∧
    (a ++ b ++ c ++ d ++ e).extractLsb' 16 4 = c ∧ (a ++ b ++ c ++ d ++ e).extractLsb' 8 8 = d ∧
    (a ++ b ++ c ++ d ++ e).extractLsb' 0 8 = e := by
  refine ⟨?_, ?_, ?_, ?_, ?_⟩ <;> ext i hi <;>
    simp only [BitVec.getElem_extractLsb', BitVec.getLsbD_append] <;>
    (repeat' split) <;> (first | omega | skip) <;> (try rw [← BitVec.getLsbD_eq_getElem]) <;> congr 1 <;> omega

@[simp] theorem unitField_commandWord (u : UnitId) (o : Op) (ch : BitVec 4) (idx mode : BitVec 8) :
    unitField (commandWord u o ch idx mode) = u.code := (append_fields ..).1

@[simp] theorem opField_commandWord (u : UnitId) (o : Op) (ch : BitVec 4) (idx mode : BitVec 8) :
    opField (commandWord u o ch idx mode) = o.code := (append_fields ..).2.1

@[simp] theorem chField_commandWord (u : UnitId) (o : Op) (ch : BitVec 4) (idx mode : BitVec 8) :
    chField (commandWord u o ch idx mode) = ch := (append_fields ..).2.2.1

@[simp] theorem idxField_commandWord (u : UnitId) (o : Op) (ch : BitVec 4) (idx mode : BitVec 8) :
    idxField (commandWord u o ch idx mode) = idx := (append_fields ..).2.2.2.1

@[simp] theorem modeField_commandWord (u : UnitId) (o : Op) (ch : BitVec 4) (idx mode : BitVec 8) :
    modeField (commandWord u o ch idx mode) = mode := (append_fields ..).2.2.2.2

/-- The tables of rules R31, R112 and R115 read back the codes. -/
@[simp] theorem unitTable_code (u : UnitId) : unitTable[u.code.toNat]? = some u := by cases u <;> rfl
@[simp] theorem opTable_code (o : Op) : opTable[o.code.toNat]? = some o := by cases o <;> rfl
@[simp] theorem pipeAuxTable_code (a : PipeAux) : pipeAuxTable[a.code.toNat]? = some a := by cases a <;> rfl

/-- The operand count of a command word of a row other than PIPE AUX is the row's (rules R110, R116). -/
theorem operandCount_row (nch : Nat) (u : UnitId) (o : Op) (ch : BitVec 4) (idx mode : BitVec 8) (rest : List Word)
    (h : (u, o) ≠ (.pipe, .aux)) :
    operandCount nch (commandWord u o ch idx mode) rest = some ((rowOperands nch u o).getD 0) := by
  unfold operandCount
  rw [unitField_commandWord, opField_commandWord, unitTable_code, opTable_code]
  cases u <;> cases o <;> first | rfl | exact absurd rfl h

/-- The operand count of a PIPE AUX command: none, but for RESTORE one more than its first operand word says (rule R110).
-/
theorem operandCount_pipeAux (nch : Nat) (a : PipeAux) (rest : List Word) :
    operandCount nch (commandWord .pipe .aux 0 a.code 0) rest =
      if a = .restore then rest.head?.map (fun n => 1 + n.toNat) else some 0 := by
  unfold operandCount
  rw [unitField_commandWord, opField_commandWord, unitTable_code, opTable_code]
  simp only [idxField_commandWord, pipeAuxTable_code]
  cases a <;> rfl

/-! ### The operand count, instruction by instruction -/

namespace Laws.OperandCount

/-- The decoder counts, behind the command word that the encoder writes, exactly the operand words that the encoder
writes (rules R110, R116). -/
def Statement (i : Instr) : Prop :=
  ∀ (p : Params) (rest : List Word), i.wellFormed p = true →
    ∃ w ops, encode i = w :: ops ∧ operandCount p.nch w (ops ++ rest) = some ops.length

theorem envRst (fs : Word) : Statement (.envRst fs) :=
  fun _ _ _ => ⟨_, _, rfl, operandCount_row _ _ _ _ _ _ _ (by decide)⟩

theorem envCfg (tAtt : Word) (tRel : Word) : Statement (.envCfg tAtt tRel) :=
  fun _ _ _ => ⟨_, _, rfl, operandCount_row _ _ _ _ _ _ _ (by decide)⟩

theorem envProc (ch : BitVec 4) (x : Word) : Statement (.envProc ch x) :=
  fun _ _ _ => ⟨_, _, rfl, operandCount_row _ _ _ _ _ _ _ (by decide)⟩

theorem bqRst (fs : Word) : Statement (.bqRst fs) :=
  fun _ _ _ => ⟨_, _, rfl, operandCount_row _ _ _ _ _ _ _ (by decide)⟩

theorem bqCfg (idx : BitVec 8) (type : BqType) (freq : Word) (q : Word) (gainDb : Word) : Statement (.bqCfg idx type freq q gainDb) :=
  fun _ _ _ => ⟨_, _, rfl, operandCount_row _ _ _ _ _ _ _ (by decide)⟩

theorem bqProc (ch : BitVec 4) (idx : BitVec 8) (x : Word) : Statement (.bqProc ch idx x) :=
  fun _ _ _ => ⟨_, _, rfl, operandCount_row _ _ _ _ _ _ _ (by decide)⟩

theorem bqGoff (idx : BitVec 8) (offsetDb : Word) : Statement (.bqGoff idx offsetDb) :=
  fun _ _ _ => ⟨_, _, rfl, operandCount_row _ _ _ _ _ _ _ (by decide)⟩

theorem svfRst (fs : Word) : Statement (.svfRst fs) :=
  fun _ _ _ => ⟨_, _, rfl, operandCount_row _ _ _ _ _ _ _ (by decide)⟩

theorem svfCfg (idx : BitVec 8) (type : SvfType) (freq : Word) (q : Word) (gainDb : Word) : Statement (.svfCfg idx type freq q gainDb) :=
  fun _ _ _ => ⟨_, _, rfl, operandCount_row _ _ _ _ _ _ _ (by decide)⟩

theorem svfProc (ch : BitVec 4) (idx : BitVec 8) (x : Word) : Statement (.svfProc ch idx x) :=
  fun _ _ _ => ⟨_, _, rfl, operandCount_row _ _ _ _ _ _ _ (by decide)⟩

theorem svfGoff (idx : BitVec 8) (offsetDb : Word) : Statement (.svfGoff idx offsetDb) :=
  fun _ _ _ => ⟨_, _, rfl, operandCount_row _ _ _ _ _ _ _ (by decide)⟩

theorem gateRst (fs : Word) : Statement (.gateRst fs) :=
  fun _ _ _ => ⟨_, _, rfl, operandCount_row _ _ _ _ _ _ _ (by decide)⟩

theorem gateCfg (threshDb : Word) (rangeDb : Word) (attackMs : Word) (holdMs : Word) (releaseMs : Word) (hystDb : Word) : Statement (.gateCfg threshDb rangeDb attackMs holdMs releaseMs hystDb) :=
  fun _ _ _ => ⟨_, _, rfl, operandCount_row _ _ _ _ _ _ _ (by decide)⟩

theorem gateProc (ch : BitVec 4) (x : Word) : Statement (.gateProc ch x) :=
  fun _ _ _ => ⟨_, _, rfl, operandCount_row _ _ _ _ _ _ _ (by decide)⟩

theorem agcRst (fs : Word) : Statement (.agcRst fs) :=
  fun _ _ _ => ⟨_, _, rfl, operandCount_row _ _ _ _ _ _ _ (by decide)⟩

theorem agcCfg (targetDb : Word) (rangeDb : Word) (attackMs : Word) (releaseMs : Word) : Statement (.agcCfg targetDb rangeDb attackMs releaseMs) :=
  fun _ _ _ => ⟨_, _, rfl, operandCount_row _ _ _ _ _ _ _ (by decide)⟩

theorem agcProc (ch : BitVec 4) (x : Word) : Statement (.agcProc ch x) :=
  fun _ _ _ => ⟨_, _, rfl, operandCount_row _ _ _ _ _ _ _ (by decide)⟩

theorem agcExt (extMode : Bool) (gainDb : Word) : Statement (.agcExt extMode gainDb) :=
  fun _ _ _ => ⟨_, _, rfl, operandCount_row _ _ _ _ _ _ _ (by decide)⟩

theorem deessRst (fs : Word) : Statement (.deessRst fs) :=
  fun _ _ _ => ⟨_, _, rfl, operandCount_row _ _ _ _ _ _ _ (by decide)⟩

theorem deessCfg (freq : Word) (threshDb : Word) (ratio : Word) (attackMs : Word) (releaseMs : Word) (maxRedDb : Word) : Statement (.deessCfg freq threshDb ratio attackMs releaseMs maxRedDb) :=
  fun _ _ _ => ⟨_, _, rfl, operandCount_row _ _ _ _ _ _ _ (by decide)⟩

theorem deessProc (ch : BitVec 4) (x : Word) : Statement (.deessProc ch x) :=
  fun _ _ _ => ⟨_, _, rfl, operandCount_row _ _ _ _ _ _ _ (by decide)⟩

theorem compRst (fs : Word) : Statement (.compRst fs) :=
  fun _ _ _ => ⟨_, _, rfl, operandCount_row _ _ _ _ _ _ _ (by decide)⟩

theorem compCfg (threshDb : Word) (ratio : Word) (kneeDb : Word) (attackMs : Word) (releaseMs : Word) (makeupDb : Word) : Statement (.compCfg threshDb ratio kneeDb attackMs releaseMs makeupDb) :=
  fun _ _ _ => ⟨_, _, rfl, operandCount_row _ _ _ _ _ _ _ (by decide)⟩

theorem compProc (ch : BitVec 4) (x : Word) : Statement (.compProc ch x) :=
  fun _ _ _ => ⟨_, _, rfl, operandCount_row _ _ _ _ _ _ _ (by decide)⟩

theorem fetRst (fs : Word) : Statement (.fetRst fs) :=
  fun _ _ _ => ⟨_, _, rfl, operandCount_row _ _ _ _ _ _ _ (by decide)⟩

theorem fetCfg (autoMakeup : Bool) (inputDb : Word) (ratio : Word) (attackMs : Word) (releaseMs : Word) : Statement (.fetCfg autoMakeup inputDb ratio attackMs releaseMs) :=
  fun _ _ _ => ⟨_, _, rfl, operandCount_row _ _ _ _ _ _ _ (by decide)⟩

theorem fetProc (ch : BitVec 4) (x : Word) : Statement (.fetProc ch x) :=
  fun _ _ _ => ⟨_, _, rfl, operandCount_row _ _ _ _ _ _ _ (by decide)⟩

theorem fetThoff (offsetDb : Word) : Statement (.fetThoff offsetDb) :=
  fun _ _ _ => ⟨_, _, rfl, operandCount_row _ _ _ _ _ _ _ (by decide)⟩

theorem satRst (fs : Word) : Statement (.satRst fs) :=
  fun _ _ _ => ⟨_, _, rfl, operandCount_row _ _ _ _ _ _ _ (by decide)⟩

theorem satCfg (type : SatType) (drive : Word) : Statement (.satCfg type drive) :=
  fun _ _ _ => ⟨_, _, rfl, operandCount_row _ _ _ _ _ _ _ (by decide)⟩

theorem satProc (ch : BitVec 4) (x : Word) : Statement (.satProc ch x) :=
  fun _ _ _ => ⟨_, _, rfl, operandCount_row _ _ _ _ _ _ _ (by decide)⟩

theorem satDscale (scale : Word) : Statement (.satDscale scale) :=
  fun _ _ _ => ⟨_, _, rfl, operandCount_row _ _ _ _ _ _ _ (by decide)⟩

theorem pitchRst (fs : Word) : Statement (.pitchRst fs) :=
  fun _ _ _ => ⟨_, _, rfl, operandCount_row _ _ _ _ _ _ _ (by decide)⟩

theorem pitchCfg (amount : Word) (windowMs : Word) : Statement (.pitchCfg amount windowMs) :=
  fun _ _ _ => ⟨_, _, rfl, operandCount_row _ _ _ _ _ _ _ (by decide)⟩

theorem pitchProc (ch : BitVec 4) (x : Word) : Statement (.pitchProc ch x) :=
  fun _ _ _ => ⟨_, _, rfl, operandCount_row _ _ _ _ _ _ _ (by decide)⟩

theorem dlyRst (fs : Word) : Statement (.dlyRst fs) :=
  fun _ _ _ => ⟨_, _, rfl, operandCount_row _ _ _ _ _ _ _ (by decide)⟩

theorem dlyCfg (timeMs : Word) (feedback : Word) (mix : Word) : Statement (.dlyCfg timeMs feedback mix) :=
  fun _ _ _ => ⟨_, _, rfl, operandCount_row _ _ _ _ _ _ _ (by decide)⟩

theorem dlyProc (ch : BitVec 4) (x : Word) : Statement (.dlyProc ch x) :=
  fun _ _ _ => ⟨_, _, rfl, operandCount_row _ _ _ _ _ _ _ (by decide)⟩

theorem rvsRst (fs : Word) : Statement (.rvsRst fs) :=
  fun _ _ _ => ⟨_, _, rfl, operandCount_row _ _ _ _ _ _ _ (by decide)⟩

theorem rvsCfg (room : Word) (damp : Word) (mix : Word) : Statement (.rvsCfg room damp mix) :=
  fun _ _ _ => ⟨_, _, rfl, operandCount_row _ _ _ _ _ _ _ (by decide)⟩

theorem rvsProc (ch : BitVec 4) (x : Word) : Statement (.rvsProc ch x) :=
  fun _ _ _ => ⟨_, _, rfl, operandCount_row _ _ _ _ _ _ _ (by decide)⟩

theorem fdnRst (fs : Word) : Statement (.fdnRst fs) :=
  fun _ _ _ => ⟨_, _, rfl, operandCount_row _ _ _ _ _ _ _ (by decide)⟩

theorem fdnCfg (size : Word) (damp : Word) (mix : Word) : Statement (.fdnCfg size damp mix) :=
  fun _ _ _ => ⟨_, _, rfl, operandCount_row _ _ _ _ _ _ _ (by decide)⟩

theorem fdnProc (ch : BitVec 4) (x : Word) : Statement (.fdnProc ch x) :=
  fun _ _ _ => ⟨_, _, rfl, operandCount_row _ _ _ _ _ _ _ (by decide)⟩

theorem widRst (fs : Word) : Statement (.widRst fs) :=
  fun _ _ _ => ⟨_, _, rfl, operandCount_row _ _ _ _ _ _ _ (by decide)⟩

theorem widCfg (monoBass : Bool) (width : Word) (bassFreq : Word) : Statement (.widCfg monoBass width bassFreq) :=
  fun _ _ _ => ⟨_, _, rfl, operandCount_row _ _ _ _ _ _ _ (by decide)⟩

theorem widProc (ch : BitVec 4) (l : Word) (r : Word) : Statement (.widProc ch l r) :=
  fun _ _ _ => ⟨_, _, rfl, operandCount_row _ _ _ _ _ _ _ (by decide)⟩

theorem osRst : Statement .osRst := fun _ _ _ => ⟨_, _, rfl, operandCount_row _ _ _ _ _ _ _ (by decide)⟩

theorem osUp (ch : BitVec 4) (x : Word) : Statement (.osUp ch x) :=
  fun _ _ _ => ⟨_, _, rfl, operandCount_row _ _ _ _ _ _ _ (by decide)⟩

theorem osDown (ch : BitVec 4) (u0 : Word) (u1 : Word) (u2 : Word) (u3 : Word) : Statement (.osDown ch u0 u1 u2 u3) :=
  fun _ _ _ => ⟨_, _, rfl, operandCount_row _ _ _ _ _ _ _ (by decide)⟩

theorem limRst (fs : Word) : Statement (.limRst fs) :=
  fun _ _ _ => ⟨_, _, rfl, operandCount_row _ _ _ _ _ _ _ (by decide)⟩

theorem limCfg (ceilingDb : Word) (releaseMs : Word) (lookaheadMs : Word) : Statement (.limCfg ceilingDb releaseMs lookaheadMs) :=
  fun _ _ _ => ⟨_, _, rfl, operandCount_row _ _ _ _ _ _ _ (by decide)⟩

theorem limProc (ch : BitVec 4) (x : Word) : Statement (.limProc ch x) :=
  fun _ _ _ => ⟨_, _, rfl, operandCount_row _ _ _ _ _ _ _ (by decide)⟩

theorem xnRst (fs : Word) : Statement (.xnRst fs) :=
  fun _ _ _ => ⟨_, _, rfl, operandCount_row _ _ _ _ _ _ _ (by decide)⟩

theorem xnCfg (targetRmsDb : Word) (fMudLo : Word) (fMudHi : Word) (fCoreLo : Word) (fCoreHi : Word) (fScrLo : Word) (fScrHi : Word) : Statement (.xnCfg targetRmsDb fMudLo fMudHi fCoreLo fCoreHi fScrLo fScrHi) :=
  fun _ _ _ => ⟨_, _, rfl, operandCount_row _ _ _ _ _ _ _ (by decide)⟩

theorem xnAcc (ch : BitVec 4) (x : Word) : Statement (.xnAcc ch x) :=
  fun _ _ _ => ⟨_, _, rfl, operandCount_row _ _ _ _ _ _ _ (by decide)⟩

theorem xnAnalyze : Statement .xnAnalyze := fun _ _ _ => ⟨_, _, rfl, operandCount_row _ _ _ _ _ _ _ (by decide)⟩

theorem pipeRst (osEn : Bool) (fs : Word) : Statement (.pipeRst osEn fs) :=
  fun _ _ _ => ⟨_, _, rfl, operandCount_row _ _ _ _ _ _ _ (by decide)⟩

theorem pipeCfg (en : Word) (sel : Word) (eqKind : Word) (eqBandEn : Word) (eqMudBand : Word) : Statement (.pipeCfg en sel eqKind eqBandEn eqMudBand) :=
  fun _ _ _ => ⟨_, _, rfl, operandCount_row _ _ _ _ _ _ _ (by decide)⟩

theorem pipeFrame (xs : List Word) : Statement (.pipeFrame xs) := by
  intro p rest h
  have : xs.length = p.nch := by simpa [Instr.wellFormed] using h
  exact ⟨_, _, rfl, (operandCount_row _ _ _ _ _ _ _ (by decide)).trans (by simp [rowOperands, this])⟩

theorem pipeBegin : Statement .pipeBegin := fun _ _ _ => ⟨_, _, rfl, operandCount_pipeAux ..⟩

theorem pipeEnd : Statement .pipeEnd := fun _ _ _ => ⟨_, _, rfl, operandCount_pipeAux ..⟩

theorem pipeDeinit : Statement .pipeDeinit := fun _ _ _ => ⟨_, _, rfl, operandCount_pipeAux ..⟩

theorem pipeSave : Statement .pipeSave := fun _ _ _ => ⟨_, _, rfl, operandCount_pipeAux ..⟩

theorem pipeRestore (n : Word) (ws : List Word) : Statement (.pipeRestore n ws) := by
  intro p rest h
  refine ⟨_, _, rfl, (operandCount_pipeAux ..).trans ?_⟩
  have : ws.length = n.toNat := by simpa [Instr.wellFormed] using h
  simp [this, Nat.add_comm]

theorem rd (unit : UnitId) (ch : BitVec 4) (idx : BitVec 8) (reg : BitVec 8) : Statement (.rd unit ch idx reg) :=
  fun _ _ _ => ⟨_, _, rfl, (operandCount_row _ _ _ _ _ _ _ (by simp)).trans (by simp [rowOperands])⟩

theorem wr (unit : UnitId) (ch : BitVec 4) (idx : BitVec 8) (reg : BitVec 8) (value : Word) : Statement (.wr unit ch idx reg value) :=
  fun _ _ _ => ⟨_, _, rfl, (operandCount_row _ _ _ _ _ _ _ (by simp)).trans (by simp [rowOperands])⟩

end Laws.OperandCount

end Sys2Proof
end

