-- ==== Sys2Proof/Laws/Encoding.lean ====
section
/-! SUPPORT. The command word that the encoder concatenates is the word that the rules of the commands write with shifts. -/

namespace Sys2Proof.Machine

/-- A field moved up inside 32 bits loses nothing. -/
theorem shiftLeft_small {w : Nat} (x : BitVec w) (k : Nat) (h : w + k ≤ 32) :
    x.toNat <<< k % 4294967296 = x.toNat <<< k := by
  apply Nat.mod_eq_of_lt
  rw [Nat.shiftLeft_eq]
  calc x.toNat * 2 ^ k < 2 ^ w * 2 ^ k := Nat.mul_lt_mul_of_pos_right x.isLt (Nat.two_pow_pos k)
    _ = 2 ^ (w + k) := (Nat.pow_add ..).symm
    _ ≤ 2 ^ 32 := Nat.pow_le_pow_right (by decide) h

/-- A field at the bottom of 32 bits is its own value. -/
theorem toNat_small {w : Nat} (x : BitVec w) (h : w ≤ 32) : x.toNat % 4294967296 = x.toNat := by
  simpa using shiftLeft_small x 0 (by omega)

/-- `UNIT ++ OP ++ CH ++ IDX ++ MODE` is `UNIT << 24 | OP << 20 | CH << 16 | IDX << 8 | MODE` (rule R111). -/
theorem commandWord_eq (u : UnitId) (o : Op) (ch : BitVec 4) (idx mode : BitVec 8) :
    commandWord u o ch idx mode =
      rowWord ((u.code.setWidth 32 <<< 24) ||| (o.code.setWidth 32 <<< 20)) ch idx ||| mode.setWidth 32 := by
  apply BitVec.eq_of_toNat_eq
  refine (show (u.code ++ o.code ++ ch ++ idx ++ mode : BitVec (8 + 4 + 4 + 8 + 8)).toNat = _ from ?_)
  have e : (2 : Nat) ^ 32 = 4294967296 := rfl
  simp only [rowWord, BitVec.toNat_append, BitVec.toNat_or, BitVec.toNat_shiftLeft, BitVec.toNat_setWidth, e,
    toNat_small _ (show 8 ≤ 32 by decide), toNat_small _ (show 4 ≤ 32 by decide),
    shiftLeft_small u.code 24 (by decide), shiftLeft_small o.code 20 (by decide), shiftLeft_small ch 16 (by decide),
    shiftLeft_small idx 8 (by decide), Nat.shiftLeft_or_distrib, ← Nat.shiftLeft_add, Nat.or_assoc]

end Sys2Proof.Machine
end

