-- ==== Sys2Proof/Laws/Num.lean ====
section
/-! SUPPORT. What the open curves and the exponential can do, said once: the running maximum that makes a curve monotone, and the bounds of `softclip2` and `exp` (rules R17, R295). -/

namespace Sys2Proof

/-! ### Fields of a word -/

theorem F32.mag_ofParts {neg : Bool} {m : Nat} (h : m < 0x80000000) : F32.mag (F32.ofParts neg m) = m := by
  cases neg <;> simp [F32.ofParts, F32.mag] <;> omega

theorem F32.sign_ofParts {neg : Bool} {m : Nat} (h : m < 0x80000000) : F32.sign (F32.ofParts neg m) = neg := by
  cases neg <;> simp [F32.ofParts, F32.sign, BitVec.msb_eq_decide] <;> omega

/-! ### The running maximum -/

@[simp] theorem runningMax_zero (f : Nat → Nat) : runningMax f 0 = 0 := rfl

@[simp] theorem runningMax_succ (f : Nat → Nat) (n : Nat) :
    runningMax f (n + 1) = max (runningMax f n) (f (n + 1)) := rfl

theorem runningMax_mono (f : Nat → Nat) {a b : Nat} (h : a ≤ b) : runningMax f a ≤ runningMax f b := by
  induction h with
  | refl => exact Nat.le_refl _
  | step _ ih => exact Nat.le_trans ih (Nat.le_max_left _ _)

theorem runningMax_le {f : Nat → Nat} {bound : Nat} (h : ∀ k, f k ≤ bound) : ∀ n, runningMax f n ≤ bound
  | 0 => Nat.zero_le _
  | n + 1 => Nat.max_le.mpr ⟨runningMax_le h n, h _⟩

/-- A monotone function that starts at 0 is its own running maximum: no curve of rule R295 is lost. -/
theorem runningMax_of_mono {f : Nat → Nat} (h0 : f 0 = 0) (h : ∀ a, f a ≤ f (a + 1)) : ∀ n, runningMax f n = f n
  | 0 => h0.symm
  | n + 1 => by rw [runningMax_succ, runningMax_of_mono h0 h n, Nat.max_eq_right (h n)]

/-! ### `softclip2` on a positive operand -/

/-- The magnitude of the curve is the running maximum. -/
theorem softclip2Pos_mag (n : Nat) (v : F32) :
    F32.mag (softclip2Pos n v) =
      runningMax (fun k => min 0x40000000 (F32.mag (Config.softclip2 n (BitVec.ofNat 32 k)))) (F32.mag v) :=
  F32.mag_ofParts (Nat.lt_of_le_of_lt (runningMax_le (fun _ => Nat.min_le_left _ _) _) (by decide))

/-- Its magnitude stays within that of 2.0. -/
theorem softclip2Pos_le (n : Nat) (v : F32) : F32.mag (softclip2Pos n v) ≤ 0x40000000 := by
  rw [softclip2Pos_mag]
  exact runningMax_le (fun _ => Nat.min_le_left _ _) _

/-- Its magnitude does not fall where that of the operand rises. -/
theorem softclip2Pos_mono (n : Nat) {v w : F32} (h : F32.mag v ≤ F32.mag w) :
    F32.mag (softclip2Pos n v) ≤ F32.mag (softclip2Pos n w) := by
  rw [softclip2Pos_mag, softclip2Pos_mag]
  exact runningMax_mono _ h

/-- A result that is not a zero is positive. -/
theorem softclip2Pos_sign {n : Nat} {v : F32} (h : F32.mag (softclip2Pos n v) ≠ 0) :
    F32.sign (softclip2Pos n v) = false := by
  rw [softclip2Pos_mag] at h
  unfold softclip2Pos
  rw [F32.sign_ofParts (Nat.lt_of_le_of_lt (runningMax_le (fun _ => Nat.min_le_left _ _) _) (by decide))]
  simp [h]

/-! ### `exp` on a negative operand -/

/-- `exp` of a finite negative value is strictly between 0 and 1, or `+0.0` where it underflows (rule R17). -/
theorem Num.exp_neg {x : F32} (hf : F32.isFinite x = true) (h : F32.lt x F32.zero = true) :
    (F32.lt F32.zero (Num.exp x) = true ∧ F32.lt (Num.exp x) F32.one = true) ∨
    (expUnderflows x = true ∧ Num.exp x = F32.zero) := by
  have hn : F32.isNaN x = false := by simp [F32.lt] at h; simp [h]
  have hi : x ≠ F32.negInf := by rintro rfl; exact absurd hf (by decide)
  have h0 : F32.key x < 0 := by
    simp only [F32.lt, Bool.and_eq_true, decide_eq_true_eq, (by decide : F32.key F32.zero = 0)] at h
    exact h.2
  have hz : F32.isZero x = false := by
    simp only [F32.key, F32.isZero, decide_eq_false_iff_not] at h0 ⊢
    split at h0 <;> omega
  have hs : F32.sign x = true := by
    unfold F32.key at h0
    split at h0
    · assumption
    · omega
  unfold Num.exp
  simp only [hn, hi, hz, hs, if_true, if_false, Bool.false_eq_true]
  split
  · exact .inl (Bool.and_eq_true_iff.1 ‹_›)
  · split
    · exact .inr ⟨‹_›, rfl⟩
    · exact .inl (by decide)

end Sys2Proof
end

