-- ==== Sys2Proof/Laws/Ops.lean ====
section
/-! SUPPORT. What each shared operation can do, said once: the checks, the two ends of a command, the step, and the ring memories with their canonical form. -/

namespace Sys2Proof.Machine

/-! ### Checks and sequencing -/

@[simp] theorem require_true (r : Raised) : require true r = .ok () := rfl
@[simp] theorem require_false (r : Raised) : require false r = .error r := rfl

theorem require_eq_ok {ok : Bool} {r : Raised} {v : Unit} : require ok r = .ok v ↔ ok = true := by
  cases ok <;> simp

theorem require_eq_error {ok : Bool} {r e : Raised} : require ok r = .error e ↔ ok = false ∧ e = r := by
  cases ok <;> simp [eq_comm]

@[simp] theorem Except.bind_ok' {α β : Type} (a : α) (f : α → Except Raised β) :
    ((.ok a : Except Raised α) >>= f) = f a := rfl

@[simp] theorem Except.bind_error' {α β : Type} (e : Raised) (f : α → Except Raised β) :
    ((.error e : Except Raised α) >>= f) = .error e := rfl

@[simp] theorem Except.pure_ok' {α : Type} (a : α) : (pure a : Except Raised α) = .ok a := rfl

/-- A sequence of two computations ends well exactly when both do. -/
theorem Except.bind_eq_ok' {α β : Type} {x : Except Raised α} {f : α → Except Raised β} {b : β} :
    (x >>= f) = .ok b ↔ ∃ a, x = .ok a ∧ f a = .ok b := by
  cases x <;> simp

/-- A sequence of two computations ends with a status when the first does, or the second after it. -/
theorem Except.bind_eq_error' {α β : Type} {x : Except Raised α} {f : α → Except Raised β} {e : Raised} :
    (x >>= f) = .error e ↔ x = .error e ∨ ∃ a, x = .ok a ∧ f a = .error e := by
  cases x <;> simp

/-- The check of an AUX command (rule R424). -/
theorem Life.needActive_eq_ok {l : Life} {v : Unit} : l.needActive = .ok v ↔ l.active = true := require_eq_ok

/-- The check of a PROC passes exactly while both flags are set (rule R424). -/
theorem Life.needReady_eq_ok {l : Life} {v : Unit} :
    l.needReady = .ok v ↔ l.active = true ∧ l.configured = true := by
  unfold Life.needReady
  cases l.active <;> cases l.configured <;> simp

/-- The check of a PROC while both flags are set. -/
theorem Life.needReady_ok {l : Life} (ha : l.active = true) (hc : l.configured = true) : l.needReady = .ok () :=
  Life.needReady_eq_ok.2 ⟨ha, hc⟩

/-- An inactive unit answers `Inactive` to a PROC, whatever its other flag (rule R423). -/
theorem Life.needReady_inactive {l : Life} (ha : l.active = false) : l.needReady = .error .inactive := by
  simp [Life.needReady, ha]

/-- An active unit that is not configured answers `Unconfigured` to a PROC. -/
theorem Life.needReady_unconfigured {l : Life} (ha : l.active = true) (hc : l.configured = false) :
    l.needReady = .error .unconfigured := by
  simp [Life.needReady, ha, hc]

/-! ### The two ends of a command -/

@[simp] theorem conclude_ok (s t : State) (results : List Word) :
    conclude s (.ok (t, results)) = .next (t.complete results) := rfl

@[simp] theorem conclude_error (s : State) (r : Raised) : conclude s (.error r) = .next (s.raise r) := rfl

/-- A command that answers a next state either completed or raised, and nothing else (rule R425). -/
theorem conclude_eq_next {s t : State} {x : Except Raised (State × List Word)} (h : conclude s x = .next t) :
    (∃ u results, x = .ok (u, results) ∧ t = u.complete results) ∨ ∃ r, x = .error r ∧ t = s.raise r := by
  match x with
  | .ok (u, results) => exact .inl ⟨u, results, rfl, by simpa [eq_comm] using h⟩
  | .error r => exact .inr ⟨r, rfl, by simpa [eq_comm] using h⟩

/-- No status word but that of `OK` is zero. -/
theorem Raised.word_ne_ok (r : Raised) : r.word ≠ okWord := by cases r <;> decide

/-- Completing and raising never look the same: their status words differ (rule R421). -/
theorem State.complete_ne_raise (s t : State) (results : List Word) (r : Raised) : t.complete results ≠ s.raise r := by
  intro h
  have h2 := congrArg (fun u : State => u.port.tx.getLast?) h
  simp [State.complete, State.raise, State.respond] at h2
  exact r.word_ne_ok h2.symm

/-- Two completed states with the same result words agree on everything that the command computed. -/
theorem State.complete_inj {s t : State} {rs : List Word} (h : s.complete rs = t.complete rs) : s = t := by
  rcases s with ⟨_, ⟨_, _⟩, _⟩
  rcases t with ⟨_, ⟨_, _⟩, _⟩
  simpa [State.complete, State.respond] using h

/-! ### The step -/

/-- Everything a step can do (rules R93, R110, R118). -/
theorem step_eq_next {s t : State} (h : step s = .next t) :
    t = s ∨ (∃ why n, s.fetch = .error (.illegal why n) ∧ t = s.dropIllegal n) ∨
    ∃ i rest, s.fetch = .ok (i, rest) ∧ exec i (s.withRx rest) = .next t := by
  unfold step at h
  split at h
  · exact .inr (.inr ⟨_, _, ‹_›, h⟩)
  · exact .inr (.inl ⟨_, _, ‹_›, by simpa [eq_comm] using h⟩)
  · exact .inl (by simpa [eq_comm] using h)
  · exact .inl (by simpa [eq_comm] using h)

/-! ### Ring memories -/

@[simp] theorem Memory.sized_cap (cap : Nat) : (Memory.sized cap).cap = cap := rfl
@[simp] theorem Memory.write_cap (m : Memory) (i : Nat) (v : Word) : (m.write i v).cap = m.cap := rfl

/-- Every cell of a memory that RST left reads `+0.0` (rule R83). -/
@[simp] theorem Memory.sized_read (cap i : Nat) : (Memory.sized cap).read i = 0 := rfl

/-- A memory that RST left is in canonical form. -/
@[simp] theorem Memory.sized_wf (cap : Nat) : (Memory.sized cap).wf = true := rfl

/-- The memory of a unit that no RST has sized is in canonical form. -/
@[simp] theorem Memory.unsized_wf : Memory.unsized.wf = true := rfl

/-- A lower bound of the numbers of a canonical list may be lowered. -/
theorem cellsWf_mono {l : List MemCell} {a b : Nat} (hab : a ≤ b) (h : cellsWf b l = true) : cellsWf a l = true := by
  cases l with
  | nil => rfl
  | cons c rest =>
    simp only [cellsWf, Bool.and_eq_true, decide_eq_true_eq] at h ⊢
    exact ⟨⟨by omega, h.1.2⟩, h.2⟩

/-- Writing a cell keeps the canonical form of the list. -/
theorem cellsWrite_wf {l : List MemCell} {lo i : Nat} {v : Word} (hi : lo ≤ i) (h : cellsWf lo l = true) :
    cellsWf lo (cellsWrite l i v) = true := by
  induction l generalizing lo with
  | nil =>
    unfold cellsWrite
    split
    · rfl
    · simp_all [cellsWf]
  | cons c rest ih =>
    obtain ⟨a, w⟩ := c
    simp only [cellsWf, Bool.and_eq_true, decide_eq_true_eq] at h
    obtain ⟨⟨hlo, hw⟩, hrest⟩ := h
    unfold cellsWrite
    split
    · simp only [cellsWf, Bool.and_eq_true, decide_eq_true_eq]
      exact ⟨⟨hlo, hw⟩, ih (by omega) hrest⟩
    · split
      · split
        · exact cellsWf_mono (by omega) hrest
        · simp only [cellsWf, Bool.and_eq_true, decide_eq_true_eq]
          exact ⟨⟨by omega, ‹_›⟩, cellsWf_mono (by omega) hrest⟩
      · split
        · simp only [cellsWf, Bool.and_eq_true, decide_eq_true_eq]
          exact ⟨⟨hlo, hw⟩, hrest⟩
        · simp only [cellsWf, Bool.and_eq_true, decide_eq_true_eq]
          exact ⟨⟨hi, ‹_›⟩, ⟨by omega, hw⟩, hrest⟩

/-- Every listed number of the written list is the one written, or was listed before. -/
theorem cellsWrite_mem {l : List MemCell} {i : Nat} {v : Word} {c : MemCell} (h : c ∈ cellsWrite l i v) :
    c.1 = i ∨ c ∈ l := by
  induction l with
  | nil =>
    unfold cellsWrite at h
    split at h <;> simp_all
  | cons d rest ih =>
    obtain ⟨a, w⟩ := d
    unfold cellsWrite at h
    split at h
    · rcases List.mem_cons.1 h with rfl | h'
      · simp
      · rcases ih h' with h'' | h'' <;> simp_all
    · split at h
      · split at h
        · simp_all
        · rcases List.mem_cons.1 h with rfl | h' <;> simp_all
      · split at h
        · exact .inr h
        · rcases List.mem_cons.1 h with rfl | h' <;> simp_all

/-- A write keeps the canonical form of a memory that has a cell (rules R80, R84). -/
theorem Memory.write_wf {m : Memory} {i : Nat} {v : Word} (hc : 0 < m.cap) (h : m.wf = true) :
    (m.write i v).wf = true := by
  simp only [Memory.wf, Bool.and_eq_true, List.all_eq_true, decide_eq_true_eq] at h ⊢
  refine ⟨cellsWrite_wf (Nat.zero_le _) h.1, fun c hm => ?_⟩
  rcases cellsWrite_mem hm with he | hm'
  · exact he ▸ Nat.mod_lt _ hc
  · exact h.2 c hm'

/-- A cell below every listed number reads as a blank one. -/
theorem cellsRead_below {l : List MemCell} {lo i : Nat} (hi : i < lo) (h : cellsWf lo l = true) :
    cellsRead l i = Memory.blank := by
  induction l generalizing lo with
  | nil => rfl
  | cons c rest ih =>
    obtain ⟨a, w⟩ := c
    simp only [cellsWf, Bool.and_eq_true, decide_eq_true_eq] at h
    have ha : a ≠ i := by omega
    simp only [cellsRead, ha, if_false]
    exact ih (by omega) h.2

/-- Reading the list after a write: the new word at its cell, every other cell as before. -/
theorem cellsRead_write {l : List MemCell} {lo i j : Nat} {v : Word} (h : cellsWf lo l = true) :
    cellsRead (cellsWrite l i v) j = if j = i then v else cellsRead l j := by
  induction l generalizing lo with
  | nil =>
    by_cases h1 : j = i
    · by_cases hv : v = Memory.blank <;> simp [cellsWrite, cellsRead, h1, hv]
    · by_cases hv : v = Memory.blank <;> simp [cellsWrite, cellsRead, h1, Ne.symm h1, hv]
  | cons c rest ih =>
    obtain ⟨a, w⟩ := c
    simp only [cellsWf, Bool.and_eq_true, decide_eq_true_eq] at h
    obtain ⟨⟨hlo, hw⟩, hrest⟩ := h
    have ihr := ih hrest
    unfold cellsWrite
    split
    · simp only [cellsRead, ihr]
      by_cases h1 : a = j
      · subst h1
        have : a ≠ i := by omega
        simp [this]
      · simp [h1]
    · split
      · subst_vars
        split
        · subst_vars
          by_cases h1 : j = a
          · subst h1
            simp [cellsRead_below (Nat.lt_succ_self j) hrest]
          · simp [cellsRead, h1, Ne.symm h1]
        · by_cases h1 : j = a
          · subst h1; simp [cellsRead]
          · simp [cellsRead, h1, Ne.symm h1]
      · split
        · subst_vars
          by_cases h1 : j = i
          · subst h1
            have ha : a ≠ j := by omega
            simp [cellsRead, ha, cellsRead_below (show j < a + 1 by omega) hrest]
          · simp [h1]
        · by_cases h1 : j = i
          · subst h1; simp [cellsRead]
          · simp [cellsRead, h1, Ne.symm h1]

/-- `MemRead` after `MemWrite` (rules R20, R84): the word written at the same cell modulo the capacity, and every other
cell as before. -/
theorem Memory.read_write {m : Memory} {i j : Nat} {v : Word} (h : m.wf = true) :
    (m.write i v).read j = if j % m.cap = i % m.cap then v else m.read j := by
  simp only [Memory.wf, Bool.and_eq_true] at h
  exact cellsRead_write h.1

/-- A cursor stays inside its memory (rule R85). -/
theorem nextCursor_lt {w : Word} {cap : Nat} (h : 0 < cap) : (nextCursor w cap).toNat < cap := by
  have h1 := Nat.mod_lt (w.toNat + 1) h
  have h2 := Nat.mod_le ((w.toNat + 1) % cap) (2 ^ 32)
  simp only [nextCursor, BitVec.toNat_ofNat]
  omega

/-! ### Instances and channels -/

theorem State.bqAt_of_lt {s : State} {i : Nat} (h : i < s.bq.length) : s.bqAt i = s.bq[i] := by
  simp [State.bqAt, List.getD, h]

theorem State.svfAt_of_lt {s : State} {i : Nat} (h : i < s.svf.length) : s.svfAt i = s.svf[i] := by
  simp [State.svfAt, List.getD, h]

@[simp] theorem perChannel_length {α : Type} (p : Ctx) (v : α) : (perChannel p v).length = p.nch := by
  simp [perChannel]

theorem mem_perChannel {α : Type} {p : Ctx} {v a : α} (h : a ∈ perChannel p v) : a = v :=
  (List.mem_replicate.1 h).2

end Sys2Proof.Machine
end

