-- ==== Sys2Proof/Laws/Pipeline.lean ====
section
/-! SUPPORT. What the sequencing operations of PIPE can do, said once: a stage runs or is skipped, a pass over the channels returns a word for each, and a composite command raises only what an inner one raises. -/

namespace Sys2Proof.Machine

/-- A disabled stage does nothing (rule R390). -/
@[simp] theorem stage_off (f : State → Nat → F32 → Except Raised (State × F32)) (s : State) (c : Nat) (x : F32) :
    stage false f s c x = .ok (s, x) := rfl

@[simp] theorem stage_on (f : State → Nat → F32 → Except Raised (State × F32)) (s : State) (c : Nat) (x : F32) :
    stage true f s c x = f s c x := rfl

@[simp] theorem stageAll_off (f : State → List F32 → Except Raised (State × List F32)) (s : State) (xs : List F32) :
    stageAll false f s xs = .ok (s, xs) := rfl

@[simp] theorem stageAll_on (f : State → List F32 → Except Raised (State × List F32)) (s : State) (xs : List F32) :
    stageAll true f s xs = f s xs := rfl

/-- What a stage keeps of the state, if the unit's PROC keeps it. -/
theorem stage_keeps {P : State → Prop} {on : Bool} {f : State → Nat → F32 → Except Raised (State × F32)}
    (hf : ∀ s c x t y, P s → f s c x = .ok (t, y) → P t) {s t : State} {c : Nat} {x y : F32}
    (hs : P s) (h : stage on f s c x = .ok (t, y)) : P t := by
  cases on
  · simp only [stage_off, Except.ok.injEq, Prod.mk.injEq] at h
    exact h.1 ▸ hs
  · exact hf s c x t y hs h

/-- A pass over the channels returns a word for each of them, and keeps what one channel keeps (rule R389). -/
theorem forChannels_keeps {P : State → Prop} {f : State → Nat → F32 → Except Raised (State × F32)}
    (hf : ∀ s c x t y, P s → f s c x = .ok (t, y) → P t) {xs ys : List F32} {s t : State} {c : Nat}
    (hs : P s) (h : forChannels f s c xs = .ok (t, ys)) : P t ∧ ys.length = xs.length := by
  induction xs generalizing s c ys with
  | nil =>
    simp only [forChannels, Except.ok.injEq, Prod.mk.injEq] at h
    exact ⟨h.1 ▸ hs, by simp [← h.2]⟩
  | cons x xs ih =>
    simp only [forChannels, Except.bind_eq_ok'] at h
    obtain ⟨⟨u, y⟩, h1, ⟨v, zs⟩, h2, h3⟩ := h
    simp only [Except.pure_ok', Except.ok.injEq, Prod.mk.injEq] at h3
    obtain ⟨rfl, rfl⟩ := h3
    obtain ⟨h4, h5⟩ := ih (hf s c x u y hs h1) h2
    exact ⟨h4, by simp [h5]⟩

/-- A pass over the channels ends well where every channel does, from every state with what one channel keeps. -/
theorem forChannels_ok {P : State → Prop} {f : State → Nat → F32 → Except Raised (State × F32)} {n : Nat}
    (hf : ∀ s c x, P s → c < n → ∃ t y, f s c x = .ok (t, y) ∧ P t) {xs : List F32} {s : State} {c : Nat}
    (hs : P s) (hc : c + xs.length ≤ n) : ∃ t ys, forChannels f s c xs = .ok (t, ys) ∧ P t := by
  induction xs generalizing s c with
  | nil => exact ⟨s, [], rfl, hs⟩
  | cons x xs ih =>
    simp only [List.length_cons] at hc
    obtain ⟨u, y, h1, hu⟩ := hf s c x hs (by omega)
    obtain ⟨t, ys, h2, ht⟩ := ih (c := c + 1) hu (by omega)
    exact ⟨t, y :: ys, by simp [forChannels, h1, h2], ht⟩

/-- A mud band of none gets no gain offset (rule R391). -/
@[simp] theorem State.goffBand_none (s : State) (v : F32) : s.goffBand noMudBand v = .ok s := by
  simp [State.goffBand]

end Sys2Proof.Machine
end

