-- ==== Sys2Proof/Laws/Registers.lean ====
section
/-! SUPPORT. When RD and WR succeed, said once, and the words of flag and enumerated registers read back. -/

namespace Sys2Proof.Machine

/-! ### Flag and enumerated registers (rule R71) -/

@[simp] theorem flagOf_flagWord (b : Bool) : flagOf (flagWord b) = some b := by cases b <;> rfl
@[simp] theorem bqTypeOf_bqTypeWord (t : BqType) : bqTypeOf (bqTypeWord t) = some t := by cases t <;> rfl
@[simp] theorem svfTypeOf_svfTypeWord (t : SvfType) : svfTypeOf (svfTypeWord t) = some t := by cases t <;> rfl
@[simp] theorem satTypeOf_satTypeWord (t : SatType) : satTypeOf (satTypeWord t) = some t := by cases t <;> rfl
@[simp] theorem gateStateOf_gateStateWord (t : GateState) : gateStateOf (gateStateWord t) = some t := by cases t <;> rfl

/-- A flag register accepts 0 and 1 and holds the word it accepted. -/
theorem flagOf_eq_some {w : Word} {b : Bool} : flagOf w = some b ↔ w = flagWord b := by
  unfold flagOf flagWord
  constructor
  · intro h
    split at h
    · cases h; simpa
    · split at h
      · cases h; simpa
      · cases h
  · rintro rfl
    cases b <;> rfl

/-- A cursor accepts exactly the values below its memory's capacity, as they come. -/
theorem cursorOf_eq_some {cap : Nat} {w v : Word} : cursorOf cap w = some v ↔ w.toNat < cap ∧ v = w := by
  unfold cursorOf accept
  split <;> simp_all [eq_comm]

/-! ### RD and WR -/

/-- The address is a register exactly where its class is defined (rule R118). -/
theorem State.registerClass_eq_ok {s : State} {u : UnitId} {c i r : Nat} {cls : RegClass} :
    s.registerClass u c i r = .ok cls ↔ regClass u r = some cls ∧ addressOk s.params u c i r = true := by
  unfold State.registerClass
  cases h : regClass u r with
  | none => simp
  | some found => by_cases ha : addressOk s.params u c i r = true <;> simp [ha]

/-- The lifecycle checks of a register of class `cls` pass (rule R400). -/
theorem checkClass_eq_ok {cls : RegClass} {l : Life} {v : Unit} : checkClass cls l = .ok v ↔
    (cls.needsActive = true → l.active = true) ∧ (cls.needsConfigured = true → l.configured = true) := by
  unfold checkClass
  cases cls.needsActive <;> cases l.active <;> cases cls.needsConfigured <;> cases l.configured <;> simp

/-- Everything a successful RD says (rule R400). -/
theorem State.readReg_eq_ok {s : State} {u : UnitId} {c i r : Nat} {w : Word} :
    s.readReg u c i r = .ok w ↔ ∃ cls, regClass u r = some cls ∧ addressOk s.params u c i r = true ∧
      checkClass cls (s.access u c i r).life = .ok () ∧ (s.access u c i r).value = w := by
  simp only [State.readReg, Except.bind_eq_ok', State.registerClass_eq_ok, Except.pure_ok', Except.ok.injEq]
  constructor
  · rintro ⟨cls, ⟨h1, h2⟩, ⟨⟩, h3, h4⟩
    exact ⟨cls, h1, h2, h3, h4⟩
  · rintro ⟨cls, h1, h2, h3, h4⟩
    exact ⟨cls, ⟨h1, h2⟩, (), h3, h4⟩

/-- Everything a successful WR says (rule R401). -/
theorem State.writeReg_eq_ok {s t : State} {u : UnitId} {c i r : Nat} {w : Word} :
    s.writeReg u c i r w = .ok t ↔ ∃ cls, regClass u r = some cls ∧ addressOk s.params u c i r = true ∧
      readOnlyReg u r = false ∧ checkClass cls (s.access u c i r).life = .ok () ∧
      (s.access u c i r).write w = some t := by
  simp only [State.writeReg, Except.bind_eq_ok', State.registerClass_eq_ok, require_eq_ok, Bool.not_eq_true']
  constructor
  · rintro ⟨cls, ⟨h1, h2⟩, ⟨⟩, h3, ⟨⟩, h4, h5⟩
    refine ⟨cls, h1, h2, h3, h4, ?_⟩
    revert h5
    unfold acceptedBy
    split <;> simp_all
  · rintro ⟨cls, h1, h2, h3, h4, h5⟩
    exact ⟨cls, ⟨h1, h2⟩, (), h3, (), h4, by simp [acceptedBy, h5]⟩

end Sys2Proof.Machine
end

