-- ==== Sys2Proof/Laws/State.lean ====
section
/-! SUPPORT. One lemma per field of the state for each update of it, true by unfolding, so that no later proof unfolds a record update. -/

namespace Sys2Proof.Machine

/-! ### `State.respond` -/

@[simp] theorem State.respond_params (s : State) (rs : List Word) (w : Word) : (s.respond rs w).params = s.params := rfl
@[simp] theorem State.respond_port (s : State) (rs : List Word) (w : Word) : (s.respond rs w).port = ⟨s.port.rx, s.port.tx ++ rs ++ [w]⟩ := rfl
@[simp] theorem State.respond_free (s : State) (rs : List Word) (w : Word) : (s.respond rs w).free = s.free := rfl
@[simp] theorem State.respond_env (s : State) (rs : List Word) (w : Word) : (s.respond rs w).env = s.env := rfl
@[simp] theorem State.respond_bq (s : State) (rs : List Word) (w : Word) : (s.respond rs w).bq = s.bq := rfl
@[simp] theorem State.respond_svf (s : State) (rs : List Word) (w : Word) : (s.respond rs w).svf = s.svf := rfl
@[simp] theorem State.respond_gate (s : State) (rs : List Word) (w : Word) : (s.respond rs w).gate = s.gate := rfl
@[simp] theorem State.respond_agc (s : State) (rs : List Word) (w : Word) : (s.respond rs w).agc = s.agc := rfl
@[simp] theorem State.respond_deess (s : State) (rs : List Word) (w : Word) : (s.respond rs w).deess = s.deess := rfl
@[simp] theorem State.respond_comp (s : State) (rs : List Word) (w : Word) : (s.respond rs w).comp = s.comp := rfl
@[simp] theorem State.respond_fet (s : State) (rs : List Word) (w : Word) : (s.respond rs w).fet = s.fet := rfl
@[simp] theorem State.respond_sat (s : State) (rs : List Word) (w : Word) : (s.respond rs w).sat = s.sat := rfl
@[simp] theorem State.respond_pitch (s : State) (rs : List Word) (w : Word) : (s.respond rs w).pitch = s.pitch := rfl
@[simp] theorem State.respond_dly (s : State) (rs : List Word) (w : Word) : (s.respond rs w).dly = s.dly := rfl
@[simp] theorem State.respond_rvs (s : State) (rs : List Word) (w : Word) : (s.respond rs w).rvs = s.rvs := rfl
@[simp] theorem State.respond_fdn (s : State) (rs : List Word) (w : Word) : (s.respond rs w).fdn = s.fdn := rfl
@[simp] theorem State.respond_wid (s : State) (rs : List Word) (w : Word) : (s.respond rs w).wid = s.wid := rfl
@[simp] theorem State.respond_os (s : State) (rs : List Word) (w : Word) : (s.respond rs w).os = s.os := rfl
@[simp] theorem State.respond_lim (s : State) (rs : List Word) (w : Word) : (s.respond rs w).lim = s.lim := rfl
@[simp] theorem State.respond_xn (s : State) (rs : List Word) (w : Word) : (s.respond rs w).xn = s.xn := rfl
@[simp] theorem State.respond_pipe (s : State) (rs : List Word) (w : Word) : (s.respond rs w).pipe = s.pipe := rfl

/-! ### `State.complete` -/

@[simp] theorem State.complete_params (s : State) (rs : List Word) : (s.complete rs).params = s.params := rfl
@[simp] theorem State.complete_port (s : State) (rs : List Word) : (s.complete rs).port = ⟨s.port.rx, s.port.tx ++ rs ++ [okWord]⟩ := rfl
@[simp] theorem State.complete_free (s : State) (rs : List Word) : (s.complete rs).free = s.free + 1 := rfl
@[simp] theorem State.complete_env (s : State) (rs : List Word) : (s.complete rs).env = s.env := rfl
@[simp] theorem State.complete_bq (s : State) (rs : List Word) : (s.complete rs).bq = s.bq := rfl
@[simp] theorem State.complete_svf (s : State) (rs : List Word) : (s.complete rs).svf = s.svf := rfl
@[simp] theorem State.complete_gate (s : State) (rs : List Word) : (s.complete rs).gate = s.gate := rfl
@[simp] theorem State.complete_agc (s : State) (rs : List Word) : (s.complete rs).agc = s.agc := rfl
@[simp] theorem State.complete_deess (s : State) (rs : List Word) : (s.complete rs).deess = s.deess := rfl
@[simp] theorem State.complete_comp (s : State) (rs : List Word) : (s.complete rs).comp = s.comp := rfl
@[simp] theorem State.complete_fet (s : State) (rs : List Word) : (s.complete rs).fet = s.fet := rfl
@[simp] theorem State.complete_sat (s : State) (rs : List Word) : (s.complete rs).sat = s.sat := rfl
@[simp] theorem State.complete_pitch (s : State) (rs : List Word) : (s.complete rs).pitch = s.pitch := rfl
@[simp] theorem State.complete_dly (s : State) (rs : List Word) : (s.complete rs).dly = s.dly := rfl
@[simp] theorem State.complete_rvs (s : State) (rs : List Word) : (s.complete rs).rvs = s.rvs := rfl
@[simp] theorem State.complete_fdn (s : State) (rs : List Word) : (s.complete rs).fdn = s.fdn := rfl
@[simp] theorem State.complete_wid (s : State) (rs : List Word) : (s.complete rs).wid = s.wid := rfl
@[simp] theorem State.complete_os (s : State) (rs : List Word) : (s.complete rs).os = s.os := rfl
@[simp] theorem State.complete_lim (s : State) (rs : List Word) : (s.complete rs).lim = s.lim := rfl
@[simp] theorem State.complete_xn (s : State) (rs : List Word) : (s.complete rs).xn = s.xn := rfl
@[simp] theorem State.complete_pipe (s : State) (rs : List Word) : (s.complete rs).pipe = s.pipe := rfl

/-! ### `State.raise` -/

@[simp] theorem State.raise_params (s : State) (r : Raised) : (s.raise r).params = s.params := rfl
@[simp] theorem State.raise_port (s : State) (r : Raised) : (s.raise r).port = ⟨s.port.rx, s.port.tx ++ [] ++ [r.word]⟩ := rfl
@[simp] theorem State.raise_free (s : State) (r : Raised) : (s.raise r).free = s.free := rfl
@[simp] theorem State.raise_env (s : State) (r : Raised) : (s.raise r).env = s.env := rfl
@[simp] theorem State.raise_bq (s : State) (r : Raised) : (s.raise r).bq = s.bq := rfl
@[simp] theorem State.raise_svf (s : State) (r : Raised) : (s.raise r).svf = s.svf := rfl
@[simp] theorem State.raise_gate (s : State) (r : Raised) : (s.raise r).gate = s.gate := rfl
@[simp] theorem State.raise_agc (s : State) (r : Raised) : (s.raise r).agc = s.agc := rfl
@[simp] theorem State.raise_deess (s : State) (r : Raised) : (s.raise r).deess = s.deess := rfl
@[simp] theorem State.raise_comp (s : State) (r : Raised) : (s.raise r).comp = s.comp := rfl
@[simp] theorem State.raise_fet (s : State) (r : Raised) : (s.raise r).fet = s.fet := rfl
@[simp] theorem State.raise_sat (s : State) (r : Raised) : (s.raise r).sat = s.sat := rfl
@[simp] theorem State.raise_pitch (s : State) (r : Raised) : (s.raise r).pitch = s.pitch := rfl
@[simp] theorem State.raise_dly (s : State) (r : Raised) : (s.raise r).dly = s.dly := rfl
@[simp] theorem State.raise_rvs (s : State) (r : Raised) : (s.raise r).rvs = s.rvs := rfl
@[simp] theorem State.raise_fdn (s : State) (r : Raised) : (s.raise r).fdn = s.fdn := rfl
@[simp] theorem State.raise_wid (s : State) (r : Raised) : (s.raise r).wid = s.wid := rfl
@[simp] theorem State.raise_os (s : State) (r : Raised) : (s.raise r).os = s.os := rfl
@[simp] theorem State.raise_lim (s : State) (r : Raised) : (s.raise r).lim = s.lim := rfl
@[simp] theorem State.raise_xn (s : State) (r : Raised) : (s.raise r).xn = s.xn := rfl
@[simp] theorem State.raise_pipe (s : State) (r : Raised) : (s.raise r).pipe = { s.pipe with status := s.pipe.status ||| r.bit } := rfl

/-! ### `State.setBq` -/

@[simp] theorem State.setBq_params (s : State) (i : Nat) (u : Bq) : (s.setBq i u).params = s.params := rfl
@[simp] theorem State.setBq_port (s : State) (i : Nat) (u : Bq) : (s.setBq i u).port = s.port := rfl
@[simp] theorem State.setBq_free (s : State) (i : Nat) (u : Bq) : (s.setBq i u).free = s.free := rfl
@[simp] theorem State.setBq_env (s : State) (i : Nat) (u : Bq) : (s.setBq i u).env = s.env := rfl
@[simp] theorem State.setBq_bq (s : State) (i : Nat) (u : Bq) : (s.setBq i u).bq = s.bq.set i u := rfl
@[simp] theorem State.setBq_svf (s : State) (i : Nat) (u : Bq) : (s.setBq i u).svf = s.svf := rfl
@[simp] theorem State.setBq_gate (s : State) (i : Nat) (u : Bq) : (s.setBq i u).gate = s.gate := rfl
@[simp] theorem State.setBq_agc (s : State) (i : Nat) (u : Bq) : (s.setBq i u).agc = s.agc := rfl
@[simp] theorem State.setBq_deess (s : State) (i : Nat) (u : Bq) : (s.setBq i u).deess = s.deess := rfl
@[simp] theorem State.setBq_comp (s : State) (i : Nat) (u : Bq) : (s.setBq i u).comp = s.comp := rfl
@[simp] theorem State.setBq_fet (s : State) (i : Nat) (u : Bq) : (s.setBq i u).fet = s.fet := rfl
@[simp] theorem State.setBq_sat (s : State) (i : Nat) (u : Bq) : (s.setBq i u).sat = s.sat := rfl
@[simp] theorem State.setBq_pitch (s : State) (i : Nat) (u : Bq) : (s.setBq i u).pitch = s.pitch := rfl
@[simp] theorem State.setBq_dly (s : State) (i : Nat) (u : Bq) : (s.setBq i u).dly = s.dly := rfl
@[simp] theorem State.setBq_rvs (s : State) (i : Nat) (u : Bq) : (s.setBq i u).rvs = s.rvs := rfl
@[simp] theorem State.setBq_fdn (s : State) (i : Nat) (u : Bq) : (s.setBq i u).fdn = s.fdn := rfl
@[simp] theorem State.setBq_wid (s : State) (i : Nat) (u : Bq) : (s.setBq i u).wid = s.wid := rfl
@[simp] theorem State.setBq_os (s : State) (i : Nat) (u : Bq) : (s.setBq i u).os = s.os := rfl
@[simp] theorem State.setBq_lim (s : State) (i : Nat) (u : Bq) : (s.setBq i u).lim = s.lim := rfl
@[simp] theorem State.setBq_xn (s : State) (i : Nat) (u : Bq) : (s.setBq i u).xn = s.xn := rfl
@[simp] theorem State.setBq_pipe (s : State) (i : Nat) (u : Bq) : (s.setBq i u).pipe = s.pipe := rfl

/-! ### `State.setSvf` -/

@[simp] theorem State.setSvf_params (s : State) (i : Nat) (u : Svf) : (s.setSvf i u).params = s.params := rfl
@[simp] theorem State.setSvf_port (s : State) (i : Nat) (u : Svf) : (s.setSvf i u).port = s.port := rfl
@[simp] theorem State.setSvf_free (s : State) (i : Nat) (u : Svf) : (s.setSvf i u).free = s.free := rfl
@[simp] theorem State.setSvf_env (s : State) (i : Nat) (u : Svf) : (s.setSvf i u).env = s.env := rfl
@[simp] theorem State.setSvf_bq (s : State) (i : Nat) (u : Svf) : (s.setSvf i u).bq = s.bq := rfl
@[simp] theorem State.setSvf_svf (s : State) (i : Nat) (u : Svf) : (s.setSvf i u).svf = s.svf.set i u := rfl
@[simp] theorem State.setSvf_gate (s : State) (i : Nat) (u : Svf) : (s.setSvf i u).gate = s.gate := rfl
@[simp] theorem State.setSvf_agc (s : State) (i : Nat) (u : Svf) : (s.setSvf i u).agc = s.agc := rfl
@[simp] theorem State.setSvf_deess (s : State) (i : Nat) (u : Svf) : (s.setSvf i u).deess = s.deess := rfl
@[simp] theorem State.setSvf_comp (s : State) (i : Nat) (u : Svf) : (s.setSvf i u).comp = s.comp := rfl
@[simp] theorem State.setSvf_fet (s : State) (i : Nat) (u : Svf) : (s.setSvf i u).fet = s.fet := rfl
@[simp] theorem State.setSvf_sat (s : State) (i : Nat) (u : Svf) : (s.setSvf i u).sat = s.sat := rfl
@[simp] theorem State.setSvf_pitch (s : State) (i : Nat) (u : Svf) : (s.setSvf i u).pitch = s.pitch := rfl
@[simp] theorem State.setSvf_dly (s : State) (i : Nat) (u : Svf) : (s.setSvf i u).dly = s.dly := rfl
@[simp] theorem State.setSvf_rvs (s : State) (i : Nat) (u : Svf) : (s.setSvf i u).rvs = s.rvs := rfl
@[simp] theorem State.setSvf_fdn (s : State) (i : Nat) (u : Svf) : (s.setSvf i u).fdn = s.fdn := rfl
@[simp] theorem State.setSvf_wid (s : State) (i : Nat) (u : Svf) : (s.setSvf i u).wid = s.wid := rfl
@[simp] theorem State.setSvf_os (s : State) (i : Nat) (u : Svf) : (s.setSvf i u).os = s.os := rfl
@[simp] theorem State.setSvf_lim (s : State) (i : Nat) (u : Svf) : (s.setSvf i u).lim = s.lim := rfl
@[simp] theorem State.setSvf_xn (s : State) (i : Nat) (u : Svf) : (s.setSvf i u).xn = s.xn := rfl
@[simp] theorem State.setSvf_pipe (s : State) (i : Nat) (u : Svf) : (s.setSvf i u).pipe = s.pipe := rfl

/-! ### `State.withRx` -/

@[simp] theorem State.withRx_params (s : State) (ws : List Word) : (s.withRx ws).params = s.params := rfl
@[simp] theorem State.withRx_port (s : State) (ws : List Word) : (s.withRx ws).port = ⟨ws, s.port.tx⟩ := rfl
@[simp] theorem State.withRx_free (s : State) (ws : List Word) : (s.withRx ws).free = s.free := rfl
@[simp] theorem State.withRx_env (s : State) (ws : List Word) : (s.withRx ws).env = s.env := rfl
@[simp] theorem State.withRx_bq (s : State) (ws : List Word) : (s.withRx ws).bq = s.bq := rfl
@[simp] theorem State.withRx_svf (s : State) (ws : List Word) : (s.withRx ws).svf = s.svf := rfl
@[simp] theorem State.withRx_gate (s : State) (ws : List Word) : (s.withRx ws).gate = s.gate := rfl
@[simp] theorem State.withRx_agc (s : State) (ws : List Word) : (s.withRx ws).agc = s.agc := rfl
@[simp] theorem State.withRx_deess (s : State) (ws : List Word) : (s.withRx ws).deess = s.deess := rfl
@[simp] theorem State.withRx_comp (s : State) (ws : List Word) : (s.withRx ws).comp = s.comp := rfl
@[simp] theorem State.withRx_fet (s : State) (ws : List Word) : (s.withRx ws).fet = s.fet := rfl
@[simp] theorem State.withRx_sat (s : State) (ws : List Word) : (s.withRx ws).sat = s.sat := rfl
@[simp] theorem State.withRx_pitch (s : State) (ws : List Word) : (s.withRx ws).pitch = s.pitch := rfl
@[simp] theorem State.withRx_dly (s : State) (ws : List Word) : (s.withRx ws).dly = s.dly := rfl
@[simp] theorem State.withRx_rvs (s : State) (ws : List Word) : (s.withRx ws).rvs = s.rvs := rfl
@[simp] theorem State.withRx_fdn (s : State) (ws : List Word) : (s.withRx ws).fdn = s.fdn := rfl
@[simp] theorem State.withRx_wid (s : State) (ws : List Word) : (s.withRx ws).wid = s.wid := rfl
@[simp] theorem State.withRx_os (s : State) (ws : List Word) : (s.withRx ws).os = s.os := rfl
@[simp] theorem State.withRx_lim (s : State) (ws : List Word) : (s.withRx ws).lim = s.lim := rfl
@[simp] theorem State.withRx_xn (s : State) (ws : List Word) : (s.withRx ws).xn = s.xn := rfl
@[simp] theorem State.withRx_pipe (s : State) (ws : List Word) : (s.withRx ws).pipe = s.pipe := rfl

/-! ### The context of a command -/

@[simp] theorem State.ctx_toParams (s : State) : s.ctx.toParams = s.params := rfl
@[simp] theorem State.ctx_seed (s : State) : s.ctx.seed = s.free := rfl
@[simp] theorem State.ctx_setBq (s : State) (i : Nat) (u : Bq) : (s.setBq i u).ctx = s.ctx := rfl
@[simp] theorem State.ctx_setSvf (s : State) (i : Nat) (u : Svf) : (s.setSvf i u).ctx = s.ctx := rfl
@[simp] theorem State.ctx_withRx (s : State) (ws : List Word) : (s.withRx ws).ctx = s.ctx := rfl

/-! ### Lifecycle -/

@[simp] theorem Life.reset_active (l : Life) (fs : F32) : (l.reset fs).active = true := rfl
@[simp] theorem Life.reset_configured (l : Life) (fs : F32) : (l.reset fs).configured = l.configured := rfl
@[simp] theorem Life.reset_fsEff (l : Life) (fs : F32) : (l.reset fs).fsEff = fs := rfl
@[simp] theorem Life.configure_active (l : Life) : (l.configure).active = l.active := rfl
@[simp] theorem Life.configure_configured (l : Life) : (l.configure).configured = true := rfl
@[simp] theorem Life.configure_fsEff (l : Life) : (l.configure).fsEff = l.fsEff := rfl
@[simp] theorem Life.deinit_active (l : Life) : (l.deinit).active = false := rfl
@[simp] theorem Life.deinit_configured (l : Life) : (l.deinit).configured = l.configured := rfl
@[simp] theorem Life.deinit_fsEff (l : Life) : (l.deinit).fsEff = l.fsEff := rfl

end Sys2Proof.Machine
end

