-- ==== Sys2Proof/Laws/Units.lean ====
section
/-! SUPPORT. What RST, CFG and PROC of a unit do, said once: the coefficient step changes the coefficients only, RST accepts exactly the rates of rule R422, PROC needs both lifecycle flags and changes state registers only. -/

namespace Sys2Proof.Machine

/-! ### Env -/

@[simp] theorem Env.derive_life (p : Ctx) (u : Env) : (u.derive p).life = u.life := by unfold Env.derive; split <;> rfl
@[simp] theorem Env.derive_P (p : Ctx) (u : Env) : (u.derive p).P = u.P := by unfold Env.derive; split <;> rfl
@[simp] theorem Env.derive_envelope (p : Ctx) (u : Env) : (u.derive p).envelope = u.envelope := by unfold Env.derive; split <;> rfl

/-! ### Bq -/

@[simp] theorem Bq.derive_life (p : Ctx) (u : Bq) : (u.derive p).life = u.life := by unfold Bq.derive; split <;> rfl
@[simp] theorem Bq.derive_P (p : Ctx) (u : Bq) : (u.derive p).P = u.P := by unfold Bq.derive; split <;> rfl
@[simp] theorem Bq.derive_taps (p : Ctx) (u : Bq) : (u.derive p).taps = u.taps := by unfold Bq.derive; split <;> rfl
@[simp] theorem Bq.derive_gainOffDb (p : Ctx) (u : Bq) : (u.derive p).gainOffDb = u.gainOffDb := by unfold Bq.derive; split <;> rfl

/-! ### Svf -/

@[simp] theorem Svf.derive_life (p : Ctx) (u : Svf) : (u.derive p).life = u.life := by unfold Svf.derive; split <;> rfl
@[simp] theorem Svf.derive_P (p : Ctx) (u : Svf) : (u.derive p).P = u.P := by unfold Svf.derive; split <;> rfl
@[simp] theorem Svf.derive_ch (p : Ctx) (u : Svf) : (u.derive p).ch = u.ch := by unfold Svf.derive; split <;> rfl
@[simp] theorem Svf.derive_gainOffDb (p : Ctx) (u : Svf) : (u.derive p).gainOffDb = u.gainOffDb := by unfold Svf.derive; split <;> rfl

/-! ### Gate -/

@[simp] theorem Gate.derive_life (p : Ctx) (u : Gate) : (u.derive p).life = u.life := by unfold Gate.derive; split <;> rfl
@[simp] theorem Gate.derive_P (p : Ctx) (u : Gate) : (u.derive p).P = u.P := by unfold Gate.derive; split <;> rfl
@[simp] theorem Gate.derive_ch (p : Ctx) (u : Gate) : (u.derive p).ch = u.ch := by unfold Gate.derive; split <;> rfl

/-! ### Agc -/

@[simp] theorem Agc.derive_life (p : Ctx) (u : Agc) : (u.derive p).life = u.life := by unfold Agc.derive; split <;> rfl
@[simp] theorem Agc.derive_P (p : Ctx) (u : Agc) : (u.derive p).P = u.P := by unfold Agc.derive; split <;> rfl
@[simp] theorem Agc.derive_K (p : Ctx) (u : Agc) : (u.derive p).K = u.K := by unfold Agc.derive; split <;> rfl
@[simp] theorem Agc.derive_ch (p : Ctx) (u : Agc) : (u.derive p).ch = u.ch := by unfold Agc.derive; split <;> rfl

/-! ### Deess -/

@[simp] theorem Deess.derive_life (p : Ctx) (u : Deess) : (u.derive p).life = u.life := by unfold Deess.derive; split <;> rfl
@[simp] theorem Deess.derive_P (p : Ctx) (u : Deess) : (u.derive p).P = u.P := by unfold Deess.derive; split <;> rfl
@[simp] theorem Deess.derive_ch (p : Ctx) (u : Deess) : (u.derive p).ch = u.ch := by unfold Deess.derive; split <;> rfl

/-! ### Comp -/

@[simp] theorem Comp.derive_life (p : Ctx) (u : Comp) : (u.derive p).life = u.life := by unfold Comp.derive; split <;> rfl
@[simp] theorem Comp.derive_P (p : Ctx) (u : Comp) : (u.derive p).P = u.P := by unfold Comp.derive; split <;> rfl
@[simp] theorem Comp.derive_gain (p : Ctx) (u : Comp) : (u.derive p).gain = u.gain := by unfold Comp.derive; split <;> rfl

/-! ### Fet -/

@[simp] theorem Fet.derive_life (p : Ctx) (u : Fet) : (u.derive p).life = u.life := by unfold Fet.derive; split <;> rfl
@[simp] theorem Fet.derive_P (p : Ctx) (u : Fet) : (u.derive p).P = u.P := by unfold Fet.derive; split <;> rfl
@[simp] theorem Fet.derive_K (p : Ctx) (u : Fet) : (u.derive p).K = u.K := by unfold Fet.derive; split <;> rfl
@[simp] theorem Fet.derive_envelope (p : Ctx) (u : Fet) : (u.derive p).envelope = u.envelope := by unfold Fet.derive; split <;> rfl

/-! ### Pitch -/

@[simp] theorem Pitch.derive_life (p : Ctx) (u : Pitch) : (u.derive p).life = u.life := by unfold Pitch.derive; split <;> rfl
@[simp] theorem Pitch.derive_P (p : Ctx) (u : Pitch) : (u.derive p).P = u.P := by unfold Pitch.derive; split <;> rfl
@[simp] theorem Pitch.derive_ch (p : Ctx) (u : Pitch) : (u.derive p).ch = u.ch := by unfold Pitch.derive; split <;> rfl

/-! ### Dly -/

@[simp] theorem Dly.derive_life (p : Ctx) (u : Dly) : (u.derive p).life = u.life := by unfold Dly.derive; split <;> rfl
@[simp] theorem Dly.derive_snap (p : Ctx) (u : Dly) : (u.derive p).snap = u.snap := by unfold Dly.derive; split <;> rfl
@[simp] theorem Dly.derive_P (p : Ctx) (u : Dly) : (u.derive p).P = u.P := by unfold Dly.derive; split <;> rfl
@[simp] theorem Dly.derive_ch (p : Ctx) (u : Dly) : (u.derive p).ch = u.ch := by unfold Dly.derive; split <;> rfl

/-! ### Fdn -/

@[simp] theorem Fdn.derive_life (p : Ctx) (u : Fdn) : (u.derive p).life = u.life := by unfold Fdn.derive; split <;> rfl
@[simp] theorem Fdn.derive_P (p : Ctx) (u : Fdn) : (u.derive p).P = u.P := by unfold Fdn.derive; split <;> rfl
@[simp] theorem Fdn.derive_ch (p : Ctx) (u : Fdn) : (u.derive p).ch = u.ch := by unfold Fdn.derive; split <;> rfl

/-! ### Wid -/

@[simp] theorem Wid.derive_life (p : Ctx) (u : Wid) : (u.derive p).life = u.life := by unfold Wid.derive; split <;> rfl
@[simp] theorem Wid.derive_P (p : Ctx) (u : Wid) : (u.derive p).P = u.P := by unfold Wid.derive; split <;> rfl
@[simp] theorem Wid.derive_pairs (p : Ctx) (u : Wid) : (u.derive p).pairs = u.pairs := by unfold Wid.derive; split <;> rfl

/-! ### Lim -/

@[simp] theorem Lim.derive_life (p : Ctx) (u : Lim) : (u.derive p).life = u.life := by unfold Lim.derive; split <;> rfl
@[simp] theorem Lim.derive_P (p : Ctx) (u : Lim) : (u.derive p).P = u.P := by unfold Lim.derive; split <;> rfl
@[simp] theorem Lim.derive_ch (p : Ctx) (u : Lim) : (u.derive p).ch = u.ch := by unfold Lim.derive; split <;> rfl

/-! ### Xn -/

@[simp] theorem Xn.derive_life (p : Ctx) (u : Xn) : (u.derive p).life = u.life := by unfold Xn.derive; split <;> rfl
@[simp] theorem Xn.derive_P (p : Ctx) (u : Xn) : (u.derive p).P = u.P := by unfold Xn.derive; split <;> rfl
@[simp] theorem Xn.derive_lps (p : Ctx) (u : Xn) : (u.derive p).lps = u.lps := by unfold Xn.derive; split <;> rfl
@[simp] theorem Xn.derive_acc (p : Ctx) (u : Xn) : (u.derive p).acc = u.acc := by unfold Xn.derive; split <;> rfl
@[simp] theorem Xn.derive_out (p : Ctx) (u : Xn) : (u.derive p).out = u.out := by unfold Xn.derive; split <;> rfl

/-- RST of Env accepts exactly the rates of rule R422, and any other ends with `Param`. -/
theorem Env.rst_error (p : Ctx) (u : Env) (fs : F32) (h : rateOk p.toParams fs = false) :
    Env.rst p u fs = .error .param := by
  simp [Env.rst, h]

/-- RST of Env at an accepted rate leaves the unit active at that rate, with its `CONFIGURED` bit and parameters. -/
theorem Env.rst_life (p : Ctx) (u v : Env) (fs : F32) (h : rateOk p.toParams fs = true)
    (hv : Env.rst p u fs = .ok v) : v.life = ⟨true, u.life.configured, fs⟩ ∧ v.P = u.P := by
  rw [Env.rst, h] at hv
  cases hv
  simp [Life.reset]

/-- RST of Gate accepts exactly the rates of rule R422, and any other ends with `Param`. -/
theorem Gate.rst_error (p : Ctx) (u : Gate) (fs : F32) (h : rateOk p.toParams fs = false) :
    Gate.rst p u fs = .error .param := by
  simp [Gate.rst, h]

/-- RST of Gate at an accepted rate leaves the unit active at that rate, with its `CONFIGURED` bit and parameters. -/
theorem Gate.rst_life (p : Ctx) (u v : Gate) (fs : F32) (h : rateOk p.toParams fs = true)
    (hv : Gate.rst p u fs = .ok v) : v.life = ⟨true, u.life.configured, fs⟩ ∧ v.P = u.P := by
  rw [Gate.rst, h] at hv
  cases hv
  simp [Life.reset]

/-- RST of Agc accepts exactly the rates of rule R422, and any other ends with `Param`. -/
theorem Agc.rst_error (p : Ctx) (u : Agc) (fs : F32) (h : rateOk p.toParams fs = false) :
    Agc.rst p u fs = .error .param := by
  simp [Agc.rst, h]

/-- RST of Agc at an accepted rate leaves the unit active at that rate, with its `CONFIGURED` bit and parameters. -/
theorem Agc.rst_life (p : Ctx) (u v : Agc) (fs : F32) (h : rateOk p.toParams fs = true)
    (hv : Agc.rst p u fs = .ok v) : v.life = ⟨true, u.life.configured, fs⟩ ∧ v.P = u.P := by
  rw [Agc.rst, h] at hv
  cases hv
  simp [Life.reset]

/-- RST of Deess accepts exactly the rates of rule R422, and any other ends with `Param`. -/
theorem Deess.rst_error (p : Ctx) (u : Deess) (fs : F32) (h : rateOk p.toParams fs = false) :
    Deess.rst p u fs = .error .param := by
  simp [Deess.rst, h]

/-- RST of Deess at an accepted rate leaves the unit active at that rate, with its `CONFIGURED` bit and parameters. -/
theorem Deess.rst_life (p : Ctx) (u v : Deess) (fs : F32) (h : rateOk p.toParams fs = true)
    (hv : Deess.rst p u fs = .ok v) : v.life = ⟨true, u.life.configured, fs⟩ ∧ v.P = u.P := by
  rw [Deess.rst, h] at hv
  cases hv
  simp [Life.reset]

/-- RST of Comp accepts exactly the rates of rule R422, and any other ends with `Param`. -/
theorem Comp.rst_error (p : Ctx) (u : Comp) (fs : F32) (h : rateOk p.toParams fs = false) :
    Comp.rst p u fs = .error .param := by
  simp [Comp.rst, h]

/-- RST of Comp at an accepted rate leaves the unit active at that rate, with its `CONFIGURED` bit and parameters. -/
theorem Comp.rst_life (p : Ctx) (u v : Comp) (fs : F32) (h : rateOk p.toParams fs = true)
    (hv : Comp.rst p u fs = .ok v) : v.life = ⟨true, u.life.configured, fs⟩ ∧ v.P = u.P := by
  rw [Comp.rst, h] at hv
  cases hv
  simp [Life.reset]

/-- RST of Fet accepts exactly the rates of rule R422, and any other ends with `Param`. -/
theorem Fet.rst_error (p : Ctx) (u : Fet) (fs : F32) (h : rateOk p.toParams fs = false) :
    Fet.rst p u fs = .error .param := by
  simp [Fet.rst, h]

/-- RST of Fet at an accepted rate leaves the unit active at that rate, with its `CONFIGURED` bit and parameters. -/
theorem Fet.rst_life (p : Ctx) (u v : Fet) (fs : F32) (h : rateOk p.toParams fs = true)
    (hv : Fet.rst p u fs = .ok v) : v.life = ⟨true, u.life.configured, fs⟩ ∧ v.P = u.P := by
  rw [Fet.rst, h] at hv
  cases hv
  simp [Life.reset]

/-- RST of Pitch accepts exactly the rates of rule R422, and any other ends with `Param`. -/
theorem Pitch.rst_error (p : Ctx) (u : Pitch) (fs : F32) (h : rateOk p.toParams fs = false) :
    Pitch.rst p u fs = .error .param := by
  simp [Pitch.rst, h]

/-- RST of Pitch at an accepted rate leaves the unit active at that rate, with its `CONFIGURED` bit and parameters. -/
theorem Pitch.rst_life (p : Ctx) (u v : Pitch) (fs : F32) (h : rateOk p.toParams fs = true)
    (hv : Pitch.rst p u fs = .ok v) : v.life = ⟨true, u.life.configured, fs⟩ ∧ v.P = u.P := by
  rw [Pitch.rst, h] at hv
  cases hv
  simp [Life.reset]

/-- RST of Dly accepts exactly the rates of rule R422, and any other ends with `Param`. -/
theorem Dly.rst_error (p : Ctx) (u : Dly) (fs : F32) (h : rateOk p.toParams fs = false) :
    Dly.rst p u fs = .error .param := by
  simp [Dly.rst, h]

/-- RST of Dly at an accepted rate leaves the unit active at that rate, with its `CONFIGURED` bit and parameters. -/
theorem Dly.rst_life (p : Ctx) (u v : Dly) (fs : F32) (h : rateOk p.toParams fs = true)
    (hv : Dly.rst p u fs = .ok v) : v.life = ⟨true, u.life.configured, fs⟩ ∧ v.P = u.P := by
  rw [Dly.rst, h] at hv
  simp only [require_true, Except.bind_ok', Except.pure_ok'] at hv
  cases hv
  unfold Dly.restart Dly.jump
  dsimp only
  split <;> simp [Life.reset]

/-- RST of Fdn accepts exactly the rates of rule R422, and any other ends with `Param`. -/
theorem Fdn.rst_error (p : Ctx) (u : Fdn) (fs : F32) (h : rateOk p.toParams fs = false) :
    Fdn.rst p u fs = .error .param := by
  simp [Fdn.rst, h]

/-- RST of Fdn at an accepted rate leaves the unit active at that rate, with its `CONFIGURED` bit and parameters. -/
theorem Fdn.rst_life (p : Ctx) (u v : Fdn) (fs : F32) (h : rateOk p.toParams fs = true)
    (hv : Fdn.rst p u fs = .ok v) : v.life = ⟨true, u.life.configured, fs⟩ ∧ v.P = u.P := by
  rw [Fdn.rst, h] at hv
  cases hv
  simp [Life.reset]

/-- RST of Wid accepts exactly the rates of rule R422, and any other ends with `Param`. -/
theorem Wid.rst_error (p : Ctx) (u : Wid) (fs : F32) (h : rateOk p.toParams fs = false) :
    Wid.rst p u fs = .error .param := by
  simp [Wid.rst, h]

/-- RST of Wid at an accepted rate leaves the unit active at that rate, with its `CONFIGURED` bit and parameters. -/
theorem Wid.rst_life (p : Ctx) (u v : Wid) (fs : F32) (h : rateOk p.toParams fs = true)
    (hv : Wid.rst p u fs = .ok v) : v.life = ⟨true, u.life.configured, fs⟩ ∧ v.P = u.P := by
  rw [Wid.rst, h] at hv
  cases hv
  simp [Life.reset]

/-- RST of Lim accepts exactly the rates of rule R422, and any other ends with `Param`. -/
theorem Lim.rst_error (p : Ctx) (u : Lim) (fs : F32) (h : rateOk p.toParams fs = false) :
    Lim.rst p u fs = .error .param := by
  simp [Lim.rst, h]

/-- RST of Lim at an accepted rate leaves the unit active at that rate, with its `CONFIGURED` bit and parameters. -/
theorem Lim.rst_life (p : Ctx) (u v : Lim) (fs : F32) (h : rateOk p.toParams fs = true)
    (hv : Lim.rst p u fs = .ok v) : v.life = ⟨true, u.life.configured, fs⟩ ∧ v.P = u.P := by
  rw [Lim.rst, h] at hv
  cases hv
  simp [Life.reset]

/-- RST of Xn accepts exactly the rates of rule R422, and any other ends with `Param`. -/
theorem Xn.rst_error (p : Ctx) (u : Xn) (fs : F32) (h : rateOk p.toParams fs = false) :
    Xn.rst p u fs = .error .param := by
  simp [Xn.rst, h]

/-- RST of Xn at an accepted rate leaves the unit active at that rate, with its `CONFIGURED` bit and parameters. -/
theorem Xn.rst_life (p : Ctx) (u v : Xn) (fs : F32) (h : rateOk p.toParams fs = true)
    (hv : Xn.rst p u fs = .ok v) : v.life = ⟨true, u.life.configured, fs⟩ ∧ v.P = u.P := by
  rw [Xn.rst, h] at hv
  cases hv
  simp [Life.reset]

/-- RST of Sat accepts exactly the rates of rule R422, and any other ends with `Param`. -/
theorem Sat.rst_error (p : Ctx) (u : Sat) (fs : F32) (h : rateOk p.toParams fs = false) :
    Sat.rst p u fs = .error .param := by
  simp [Sat.rst, h]

/-- RST of Sat at an accepted rate leaves the unit active at that rate, with its `CONFIGURED` bit and parameters. -/
theorem Sat.rst_life (p : Ctx) (u v : Sat) (fs : F32) (h : rateOk p.toParams fs = true)
    (hv : Sat.rst p u fs = .ok v) : v.life = ⟨true, u.life.configured, fs⟩ ∧ v.P = u.P := by
  rw [Sat.rst, h] at hv
  cases hv
  exact ⟨rfl, rfl⟩

/-- RST of Rvs accepts exactly the rates of rule R422, and any other ends with `Param`. -/
theorem Rvs.rst_error (p : Ctx) (u : Rvs) (fs : F32) (h : rateOk p.toParams fs = false) :
    Rvs.rst p u fs = .error .param := by
  simp [Rvs.rst, h]

/-- RST of Rvs at an accepted rate leaves the unit active at that rate, with its `CONFIGURED` bit and parameters. -/
theorem Rvs.rst_life (p : Ctx) (u v : Rvs) (fs : F32) (h : rateOk p.toParams fs = true)
    (hv : Rvs.rst p u fs = .ok v) : v.life = ⟨true, u.life.configured, fs⟩ ∧ v.P = u.P := by
  rw [Rvs.rst, h] at hv
  cases hv
  exact ⟨rfl, rfl⟩

/-- PROC of Env runs exactly while both lifecycle flags are set, and keeps them and the parameters. -/
theorem Env.proc_eq_ok {p : Ctx} {u v : Env} {c : Nat} {x y : F32} (h : u.proc p c x = .ok (v, y)) :
    u.life.active = true ∧ u.life.configured = true ∧ v.life = u.life ∧ v.P = u.P := by
  obtain ⟨_, hr, h⟩ := Except.bind_eq_ok'.1 h
  obtain ⟨ha, hc⟩ := Life.needReady_eq_ok.1 hr
  cases h
  exact ⟨ha, hc, rfl, rfl⟩

theorem Env.proc_ok {u : Env} (p : Ctx) (c : Nat) (x : F32) (ha : u.life.active = true)
    (hc : u.life.configured = true) : ∃ v y, u.proc p c x = .ok (v, y) :=
  ⟨_, _, by rw [Env.proc, Life.needReady_ok ha hc]; rfl⟩

/-- PROC of Bq runs exactly while both lifecycle flags are set, and keeps them and the parameters. -/
theorem Bq.proc_eq_ok {p : Ctx} {u v : Bq} {c : Nat} {x y : F32} (h : u.proc p c x = .ok (v, y)) :
    u.life.active = true ∧ u.life.configured = true ∧ v.life = u.life ∧ v.P = u.P := by
  obtain ⟨_, hr, h⟩ := Except.bind_eq_ok'.1 h
  obtain ⟨ha, hc⟩ := Life.needReady_eq_ok.1 hr
  cases h
  exact ⟨ha, hc, rfl, rfl⟩

theorem Bq.proc_ok {u : Bq} (p : Ctx) (c : Nat) (x : F32) (ha : u.life.active = true)
    (hc : u.life.configured = true) : ∃ v y, u.proc p c x = .ok (v, y) :=
  ⟨_, _, by rw [Bq.proc, Life.needReady_ok ha hc]; rfl⟩

/-- PROC of Svf runs exactly while both lifecycle flags are set, and keeps them and the parameters. -/
theorem Svf.proc_eq_ok {p : Ctx} {u v : Svf} {c : Nat} {x y : F32} (h : u.proc p c x = .ok (v, y)) :
    u.life.active = true ∧ u.life.configured = true ∧ v.life = u.life ∧ v.P = u.P := by
  obtain ⟨_, hr, h⟩ := Except.bind_eq_ok'.1 h
  obtain ⟨ha, hc⟩ := Life.needReady_eq_ok.1 hr
  cases h
  exact ⟨ha, hc, rfl, rfl⟩

theorem Svf.proc_ok {u : Svf} (p : Ctx) (c : Nat) (x : F32) (ha : u.life.active = true)
    (hc : u.life.configured = true) : ∃ v y, u.proc p c x = .ok (v, y) :=
  ⟨_, _, by rw [Svf.proc, Life.needReady_ok ha hc]; rfl⟩

/-- PROC of Gate runs exactly while both lifecycle flags are set, and keeps them and the parameters. -/
theorem Gate.proc_eq_ok {p : Ctx} {u v : Gate} {c : Nat} {x y : F32} (h : u.proc p c x = .ok (v, y)) :
    u.life.active = true ∧ u.life.configured = true ∧ v.life = u.life ∧ v.P = u.P := by
  obtain ⟨_, hr, h⟩ := Except.bind_eq_ok'.1 h
  obtain ⟨ha, hc⟩ := Life.needReady_eq_ok.1 hr
  cases h
  exact ⟨ha, hc, rfl, rfl⟩

theorem Gate.proc_ok {u : Gate} (p : Ctx) (c : Nat) (x : F32) (ha : u.life.active = true)
    (hc : u.life.configured = true) : ∃ v y, u.proc p c x = .ok (v, y) :=
  ⟨_, _, by rw [Gate.proc, Life.needReady_ok ha hc]; rfl⟩

/-- PROC of Agc runs exactly while both lifecycle flags are set, and keeps them and the parameters. -/
theorem Agc.proc_eq_ok {p : Ctx} {u v : Agc} {c : Nat} {x y : F32} (h : u.proc p c x = .ok (v, y)) :
    u.life.active = true ∧ u.life.configured = true ∧ v.life = u.life ∧ v.P = u.P := by
  obtain ⟨_, hr, h⟩ := Except.bind_eq_ok'.1 h
  obtain ⟨ha, hc⟩ := Life.needReady_eq_ok.1 hr
  cases h
  exact ⟨ha, hc, rfl, rfl⟩

theorem Agc.proc_ok {u : Agc} (p : Ctx) (c : Nat) (x : F32) (ha : u.life.active = true)
    (hc : u.life.configured = true) : ∃ v y, u.proc p c x = .ok (v, y) :=
  ⟨_, _, by rw [Agc.proc, Life.needReady_ok ha hc]; rfl⟩

/-- PROC of Deess runs exactly while both lifecycle flags are set, and keeps them and the parameters. -/
theorem Deess.proc_eq_ok {p : Ctx} {u v : Deess} {c : Nat} {x y : F32} (h : u.proc p c x = .ok (v, y)) :
    u.life.active = true ∧ u.life.configured = true ∧ v.life = u.life ∧ v.P = u.P := by
  obtain ⟨_, hr, h⟩ := Except.bind_eq_ok'.1 h
  obtain ⟨ha, hc⟩ := Life.needReady_eq_ok.1 hr
  cases h
  exact ⟨ha, hc, rfl, rfl⟩

theorem Deess.proc_ok {u : Deess} (p : Ctx) (c : Nat) (x : F32) (ha : u.life.active = true)
    (hc : u.life.configured = true) : ∃ v y, u.proc p c x = .ok (v, y) :=
  ⟨_, _, by rw [Deess.proc, Life.needReady_ok ha hc]; rfl⟩

/-- PROC of Comp runs exactly while both lifecycle flags are set, and keeps them and the parameters. -/
theorem Comp.proc_eq_ok {p : Ctx} {u v : Comp} {c : Nat} {x y : F32} (h : u.proc p c x = .ok (v, y)) :
    u.life.active = true ∧ u.life.configured = true ∧ v.life = u.life ∧ v.P = u.P := by
  obtain ⟨_, hr, h⟩ := Except.bind_eq_ok'.1 h
  obtain ⟨ha, hc⟩ := Life.needReady_eq_ok.1 hr
  cases h
  exact ⟨ha, hc, rfl, rfl⟩

theorem Comp.proc_ok {u : Comp} (p : Ctx) (c : Nat) (x : F32) (ha : u.life.active = true)
    (hc : u.life.configured = true) : ∃ v y, u.proc p c x = .ok (v, y) :=
  ⟨_, _, by rw [Comp.proc, Life.needReady_ok ha hc]; rfl⟩

/-- PROC of Fet runs exactly while both lifecycle flags are set, and keeps them and the parameters. -/
theorem Fet.proc_eq_ok {p : Ctx} {u v : Fet} {c : Nat} {x y : F32} (h : u.proc p c x = .ok (v, y)) :
    u.life.active = true ∧ u.life.configured = true ∧ v.life = u.life ∧ v.P = u.P := by
  obtain ⟨_, hr, h⟩ := Except.bind_eq_ok'.1 h
  obtain ⟨ha, hc⟩ := Life.needReady_eq_ok.1 hr
  cases h
  exact ⟨ha, hc, rfl, rfl⟩

theorem Fet.proc_ok {u : Fet} (p : Ctx) (c : Nat) (x : F32) (ha : u.life.active = true)
    (hc : u.life.configured = true) : ∃ v y, u.proc p c x = .ok (v, y) :=
  ⟨_, _, by rw [Fet.proc, Life.needReady_ok ha hc]; rfl⟩

/-- PROC of Sat runs exactly while both lifecycle flags are set, and keeps them and the parameters. -/
theorem Sat.proc_eq_ok {p : Ctx} {u v : Sat} {c : Nat} {x y : F32} (h : u.proc p c x = .ok (v, y)) :
    u.life.active = true ∧ u.life.configured = true ∧ v.life = u.life ∧ v.P = u.P := by
  obtain ⟨_, hr, h⟩ := Except.bind_eq_ok'.1 h
  obtain ⟨ha, hc⟩ := Life.needReady_eq_ok.1 hr
  cases h
  exact ⟨ha, hc, rfl, rfl⟩

theorem Sat.proc_ok {u : Sat} (p : Ctx) (c : Nat) (x : F32) (ha : u.life.active = true)
    (hc : u.life.configured = true) : ∃ v y, u.proc p c x = .ok (v, y) :=
  ⟨_, _, by rw [Sat.proc, Life.needReady_ok ha hc]; rfl⟩

/-- PROC of Pitch runs exactly while both lifecycle flags are set, and keeps them and the parameters. -/
theorem Pitch.proc_eq_ok {p : Ctx} {u v : Pitch} {c : Nat} {x y : F32} (h : u.proc p c x = .ok (v, y)) :
    u.life.active = true ∧ u.life.configured = true ∧ v.life = u.life ∧ v.P = u.P := by
  obtain ⟨_, hr, h⟩ := Except.bind_eq_ok'.1 h
  obtain ⟨ha, hc⟩ := Life.needReady_eq_ok.1 hr
  cases h
  exact ⟨ha, hc, rfl, rfl⟩

theorem Pitch.proc_ok {u : Pitch} (p : Ctx) (c : Nat) (x : F32) (ha : u.life.active = true)
    (hc : u.life.configured = true) : ∃ v y, u.proc p c x = .ok (v, y) :=
  ⟨_, _, by rw [Pitch.proc, Life.needReady_ok ha hc]; rfl⟩

/-- PROC of Dly runs exactly while both lifecycle flags are set, and keeps them and the parameters. -/
theorem Dly.proc_eq_ok {p : Ctx} {u v : Dly} {c : Nat} {x y : F32} (h : u.proc p c x = .ok (v, y)) :
    u.life.active = true ∧ u.life.configured = true ∧ v.life = u.life ∧ v.P = u.P := by
  obtain ⟨_, hr, h⟩ := Except.bind_eq_ok'.1 h
  obtain ⟨ha, hc⟩ := Life.needReady_eq_ok.1 hr
  cases h
  exact ⟨ha, hc, rfl, rfl⟩

theorem Dly.proc_ok {u : Dly} (p : Ctx) (c : Nat) (x : F32) (ha : u.life.active = true)
    (hc : u.life.configured = true) : ∃ v y, u.proc p c x = .ok (v, y) :=
  ⟨_, _, by rw [Dly.proc, Life.needReady_ok ha hc]; rfl⟩

/-- PROC of Rvs runs exactly while both lifecycle flags are set, and keeps them and the parameters. -/
theorem Rvs.proc_eq_ok {p : Ctx} {u v : Rvs} {c : Nat} {x y : F32} (h : u.proc p c x = .ok (v, y)) :
    u.life.active = true ∧ u.life.configured = true ∧ v.life = u.life ∧ v.P = u.P := by
  obtain ⟨_, hr, h⟩ := Except.bind_eq_ok'.1 h
  obtain ⟨ha, hc⟩ := Life.needReady_eq_ok.1 hr
  cases h
  exact ⟨ha, hc, rfl, rfl⟩

theorem Rvs.proc_ok {u : Rvs} (p : Ctx) (c : Nat) (x : F32) (ha : u.life.active = true)
    (hc : u.life.configured = true) : ∃ v y, u.proc p c x = .ok (v, y) :=
  ⟨_, _, by rw [Rvs.proc, Life.needReady_ok ha hc]; rfl⟩

/-- PROC of Fdn runs exactly while both lifecycle flags are set, and keeps them and the parameters. -/
theorem Fdn.proc_eq_ok {p : Ctx} {u v : Fdn} {c : Nat} {x y : F32} (h : u.proc p c x = .ok (v, y)) :
    u.life.active = true ∧ u.life.configured = true ∧ v.life = u.life ∧ v.P = u.P := by
  obtain ⟨_, hr, h⟩ := Except.bind_eq_ok'.1 h
  obtain ⟨ha, hc⟩ := Life.needReady_eq_ok.1 hr
  cases h
  exact ⟨ha, hc, rfl, rfl⟩

theorem Fdn.proc_ok {u : Fdn} (p : Ctx) (c : Nat) (x : F32) (ha : u.life.active = true)
    (hc : u.life.configured = true) : ∃ v y, u.proc p c x = .ok (v, y) :=
  ⟨_, _, by rw [Fdn.proc, Life.needReady_ok ha hc]; rfl⟩

/-- PROC of Lim runs exactly while both lifecycle flags are set, and keeps them and the parameters. -/
theorem Lim.proc_eq_ok {p : Ctx} {u v : Lim} {c : Nat} {x y : F32} (h : u.proc p c x = .ok (v, y)) :
    u.life.active = true ∧ u.life.configured = true ∧ v.life = u.life ∧ v.P = u.P := by
  obtain ⟨_, hr, h⟩ := Except.bind_eq_ok'.1 h
  obtain ⟨ha, hc⟩ := Life.needReady_eq_ok.1 hr
  cases h
  exact ⟨ha, hc, rfl, rfl⟩

theorem Lim.proc_ok {u : Lim} (p : Ctx) (c : Nat) (x : F32) (ha : u.life.active = true)
    (hc : u.life.configured = true) : ∃ v y, u.proc p c x = .ok (v, y) :=
  ⟨_, _, by rw [Lim.proc, Life.needReady_ok ha hc]; rfl⟩

/-- PROC of WID runs exactly while both lifecycle flags are set, and keeps them and the parameters. -/
theorem Wid.proc_eq_ok {p : Ctx} {u v : Wid} {i : Nat} {l r l' r' : F32} (h : u.proc p i l r = .ok (v, l', r')) :
    u.life.active = true ∧ u.life.configured = true ∧ v.life = u.life ∧ v.P = u.P := by
  obtain ⟨_, hr, h⟩ := Except.bind_eq_ok'.1 h
  obtain ⟨ha, hc⟩ := Life.needReady_eq_ok.1 hr
  cases h
  exact ⟨ha, hc, rfl, rfl⟩

theorem Wid.proc_ok {u : Wid} (p : Ctx) (i : Nat) (l r : F32) (ha : u.life.active = true)
    (hc : u.life.configured = true) : ∃ v l' r', u.proc p i l r = .ok (v, l', r') :=
  ⟨_, _, _, by rw [Wid.proc, Life.needReady_ok ha hc]; rfl⟩

/-- ACC runs exactly while both lifecycle flags are set, and keeps them, the parameters and the outputs. -/
theorem Xn.gather_eq_ok {p : Ctx} {u v : Xn} {c : Nat} {x : F32} (h : u.gather p c x = .ok v) :
    u.life.active = true ∧ u.life.configured = true ∧ v.life = u.life ∧ v.P = u.P ∧ v.out = u.out := by
  obtain ⟨_, hr, h⟩ := Except.bind_eq_ok'.1 h
  obtain ⟨ha, hc⟩ := Life.needReady_eq_ok.1 hr
  cases h
  exact ⟨ha, hc, rfl, rfl, rfl⟩

/-- ANALYZE runs exactly while both lifecycle flags are set, and keeps them and the parameters. -/
theorem Xn.analyze_eq_ok {p : Ctx} {u v : Xn} (h : u.analyze p = .ok v) :
    u.life.active = true ∧ u.life.configured = true ∧ v.life = u.life ∧ v.P = u.P := by
  obtain ⟨_, hr, h⟩ := Except.bind_eq_ok'.1 h
  obtain ⟨ha, hc⟩ := Life.needReady_eq_ok.1 hr
  cases h
  split <;> exact ⟨ha, hc, rfl, rfl⟩

end Sys2Proof.Machine
end

