-- ==== Sys2Proof/Tests/Slice0.lean ====
section
/-! SUPPORT. Tests: ill-formed commands that each check refuses, the decoding of a word of every row written out from rules R111 to R116, one-step tests with the expected words of the spec's own vectors (Part B and Part C of the validation files), and for every statement with hypotheses a state and operands that meet them. -/

namespace Sys2Proof.Tests

set_option Elab.async false

open Sys2Proof Sys2Proof.Machine

/-! ### Helpers -/

/-- The default build (log entry 2). -/
abbrev std : Params := Params.standard

/-- The words decode to the command, with nothing left over. -/
def decodesTo (ws : List Word) (i : Instr) : Bool :=
  match decode std ws with
  | .ok (j, rest) => decide (j = i) && rest.isEmpty
  | .error _ => false

/-- The words are refused, for that reason, with that many operand words. -/
def refusedFor (ws : List Word) (why : IllegalWord) (n : Nat) : Bool :=
  match decode std ws with
  | .error e => decide (e = .illegal why n)
  | .ok _ => false

/-- The state that a command leaves. -/
def after (s : State) (i : Instr) : State :=
  match exec i s with
  | .next t => t
  | _ => s

/-- The words that a command returns, its status word last. -/
def reply (s : State) (i : Instr) : List Word := ((after s i).port.tx).drop s.port.tx.length

/-- The words returned by the step that takes these words from the port. -/
def stepReply (s : State) (ws : List Word) : List Word :=
  match step { s with port := ⟨ws, []⟩ } with
  | .next t => t.port.tx
  | _ => []

/-- Active and configured at 1000 Hz. -/
def on : Life := ⟨true, true, 0x447A0000⟩

/-- Active at 1000 Hz, not configured. -/
def half : Life := ⟨true, false, 0x447A0000⟩

/-- A block with every unit and instance in the lifecycle `l`, short memories and PIPE outside a block. -/
def block (p : Params) (l : Life) : State :=
  let s := State.powerOn p
  { s with
    env := { s.env with life := l }
    bq := s.bq.map (fun u => { u with life := l })
    svf := s.svf.map (fun u => { u with life := l })
    gate := { s.gate with life := l }, agc := { s.agc with life := l }, deess := { s.deess with life := l }
    comp := { s.comp with life := l }, fet := { s.fet with life := l }, sat := { s.sat with life := l }
    pitch := { s.pitch with life := l, ch := List.replicate p.nch ⟨0, 0, Memory.sized 8⟩ }
    dly := { s.dly with life := l, ch := List.replicate p.nch ⟨0x40000000, 0, Memory.sized 8⟩ }
    rvs := { s.rvs with
      life := l, clen := List.replicate 8 2, alen := List.replicate 4 2
      ch := List.replicate p.nch ⟨List.replicate 8 ⟨0, 0, Memory.sized 2⟩, List.replicate 4 ⟨0, Memory.sized 2⟩⟩ }
    fdn := { s.fdn with
      life := l, C := ⟨0, List.replicate 8 1⟩
      ch := List.replicate p.nch ⟨0, List.replicate 8 0, List.replicate 8 (Memory.sized 4)⟩ }
    wid := { s.wid with life := l }
    os := { s.os with life := { l with configured := true } }
    lim := { s.lim with life := l, ch := List.replicate p.nch ⟨0, 0x3F800000, Memory.sized 8⟩ }
    xn := { s.xn with life := l }
    pipe := { s.pipe with life := l, P := ⟨0, 0, 0, 0, noMudBand⟩, L := ⟨0, 3, 0, 0, noMudBand⟩ } }

/-- Every unit active and configured. -/
def ready : State := block std on

/-- Every unit active, none configured. -/
def bare : State := block std half

/-- The block `s` inside a block of samples with the latched configuration `L`. -/
def State.within (s : State) (L : PipeP) : State := { s with pipe := { s.pipe with L := L, inBlock := true } }

/-- Inside a block with every stage off. -/
def inBlock : State := State.within ready ⟨0, 3, 0, 0, noMudBand⟩

/-! ### WellFormed: each check refuses an ill-formed command (rule R118) -/

theorem test_wellFormed_channel : Instr.wellFormed std (.envProc 2 0) = false ∧ Instr.wellFormed std (.osDown 2 0 0 0 0) = false ∧
    Instr.wellFormed std (.envProc 1 0) = true := by decide

theorem test_wellFormed_band : Instr.wellFormed std (.bqCfg 4 .peaking 0 0 0) = false ∧ Instr.wellFormed std (.svfProc 0 4 0) = false ∧
    Instr.wellFormed std (.bqProc 2 0 0) = false ∧ Instr.wellFormed std (.svfGoff 3 0) = true := by decide

theorem test_wellFormed_pair : Instr.wellFormed std (.widProc 1 0 0) = false ∧ Instr.wellFormed std (.widProc 2 0 0) = false ∧
    Instr.wellFormed std (.widProc 0 0 0) = true := by decide

theorem test_wellFormed_frame : Instr.wellFormed std (.pipeFrame [0]) = false ∧ Instr.wellFormed std (.pipeFrame [0, 0, 0]) = false ∧
    Instr.wellFormed std (.pipeFrame [0, 0]) = true := by decide

theorem test_wellFormed_restore : Instr.wellFormed std (.pipeRestore 2 [0]) = false ∧
    Instr.wellFormed std (.pipeRestore 2 [0, 0]) = true := by decide

theorem test_wellFormed_address : Instr.wellFormed std (.rd .env 0 0 5) = false ∧ Instr.wellFormed std (.rd .env 2 0 4) = false ∧
    Instr.wellFormed std (.wr .env 1 0 2 0) = false ∧ Instr.wellFormed std (.wr .bq 0 4 0 0) = false ∧
    Instr.wellFormed std (.rd .wid 1 0 4) = false ∧ Instr.wellFormed std (.rd .env 1 0 4) = true := by decide

/-! ### Decode: a word of every row, from its UNIT, OP, CH, IDX and MODE (rules R111 to R116) -/

theorem test_decode_env :
    decodesTo [0x00000000, 0x3F800000] (.envRst 0x3F800000) = true ∧
    decodesTo [0x00100000, 0x3F800000, 0x40000000] (.envCfg 0x3F800000 0x40000000) = true ∧
    decodesTo [0x00210000, 0x3F800000] (.envProc 1 0x3F800000) = true := by decide +kernel

theorem test_decode_bq :
    decodesTo [0x01000000, 0x3F800000] (.bqRst 0x3F800000) = true ∧
    decodesTo [0x01100204, 0x3F800000, 0x40000000, 0x40400000] (.bqCfg 2 .highPass 0x3F800000 0x40000000 0x40400000) = true ∧
    decodesTo [0x01210300, 0x3F800000] (.bqProc 1 3 0x3F800000) = true ∧
    decodesTo [0x01300300, 0x3F800000] (.bqGoff 3 0x3F800000) = true := by decide +kernel

theorem test_decode_svf :
    decodesTo [0x02000000, 0x3F800000] (.svfRst 0x3F800000) = true ∧
    decodesTo [0x02100201, 0x3F800000, 0x40000000, 0x40400000] (.svfCfg 2 .peaking 0x3F800000 0x40000000 0x40400000) = true ∧
    decodesTo [0x02210300, 0x3F800000] (.svfProc 1 3 0x3F800000) = true ∧
    decodesTo [0x02300300, 0x3F800000] (.svfGoff 3 0x3F800000) = true := by decide +kernel

theorem test_decode_gate :
    decodesTo [0x03000000, 0x3F800000] (.gateRst 0x3F800000) = true ∧
    decodesTo [0x03100000, 0x3F800000, 0x40000000, 0x40400000, 0x40800000, 0x40A00000, 0x40C00000] (.gateCfg 0x3F800000 0x40000000 0x40400000 0x40800000 0x40A00000 0x40C00000) = true ∧
    decodesTo [0x03210000, 0x3F800000] (.gateProc 1 0x3F800000) = true := by decide +kernel

theorem test_decode_agc :
    decodesTo [0x04000000, 0x3F800000] (.agcRst 0x3F800000) = true ∧
    decodesTo [0x04100000, 0x3F800000, 0x40000000, 0x40400000, 0x40800000] (.agcCfg 0x3F800000 0x40000000 0x40400000 0x40800000) = true ∧
    decodesTo [0x04210000, 0x3F800000] (.agcProc 1 0x3F800000) = true ∧
    decodesTo [0x04300001, 0x3F800000] (.agcExt true 0x3F800000) = true := by decide +kernel

theorem test_decode_deess :
    decodesTo [0x05000000, 0x3F800000] (.deessRst 0x3F800000) = true ∧
    decodesTo [0x05100000, 0x3F800000, 0x40000000, 0x40400000, 0x40800000, 0x40A00000, 0x40C00000] (.deessCfg 0x3F800000 0x40000000 0x40400000 0x40800000 0x40A00000 0x40C00000) = true ∧
    decodesTo [0x05210000, 0x3F800000] (.deessProc 1 0x3F800000) = true := by decide +kernel

theorem test_decode_comp :
    decodesTo [0x06000000, 0x3F800000] (.compRst 0x3F800000) = true ∧
    decodesTo [0x06100000, 0x3F800000, 0x40000000, 0x40400000, 0x40800000, 0x40A00000, 0x40C00000] (.compCfg 0x3F800000 0x40000000 0x40400000 0x40800000 0x40A00000 0x40C00000) = true ∧
    decodesTo [0x06210000, 0x3F800000] (.compProc 1 0x3F800000) = true := by decide +kernel

theorem test_decode_fet :
    decodesTo [0x07000000, 0x3F800000] (.fetRst 0x3F800000) = true ∧
    decodesTo [0x07100001, 0x3F800000, 0x40000000, 0x40400000, 0x40800000] (.fetCfg true 0x3F800000 0x40000000 0x40400000 0x40800000) = true ∧
    decodesTo [0x07210000, 0x3F800000] (.fetProc 1 0x3F800000) = true ∧
    decodesTo [0x07300000, 0x3F800000] (.fetThoff 0x3F800000) = true := by decide +kernel

theorem test_decode_sat :
    decodesTo [0x08000000, 0x3F800000] (.satRst 0x3F800000) = true ∧
    decodesTo [0x08100001, 0x3F800000] (.satCfg .tanh 0x3F800000) = true ∧
    decodesTo [0x08210000, 0x3F800000] (.satProc 1 0x3F800000) = true ∧
    decodesTo [0x08300000, 0x3F800000] (.satDscale 0x3F800000) = true := by decide +kernel

theorem test_decode_pitch :
    decodesTo [0x09000000, 0x3F800000] (.pitchRst 0x3F800000) = true ∧
    decodesTo [0x09100000, 0x3F800000, 0x40000000] (.pitchCfg 0x3F800000 0x40000000) = true ∧
    decodesTo [0x09210000, 0x3F800000] (.pitchProc 1 0x3F800000) = true := by decide +kernel

theorem test_decode_dly :
    decodesTo [0x0A000000, 0x3F800000] (.dlyRst 0x3F800000) = true ∧
    decodesTo [0x0A100000, 0x3F800000, 0x40000000, 0x40400000] (.dlyCfg 0x3F800000 0x40000000 0x40400000) = true ∧
    decodesTo [0x0A210000, 0x3F800000] (.dlyProc 1 0x3F800000) = true := by decide +kernel

theorem test_decode_rvs :
    decodesTo [0x0B000000, 0x3F800000] (.rvsRst 0x3F800000) = true ∧
    decodesTo [0x0B100000, 0x3F800000, 0x40000000, 0x40400000] (.rvsCfg 0x3F800000 0x40000000 0x40400000) = true ∧
    decodesTo [0x0B210000, 0x3F800000] (.rvsProc 1 0x3F800000) = true := by decide +kernel

theorem test_decode_fdn :
    decodesTo [0x0C000000, 0x3F800000] (.fdnRst 0x3F800000) = true ∧
    decodesTo [0x0C100000, 0x3F800000, 0x40000000, 0x40400000] (.fdnCfg 0x3F800000 0x40000000 0x40400000) = true ∧
    decodesTo [0x0C210000, 0x3F800000] (.fdnProc 1 0x3F800000) = true := by decide +kernel

theorem test_decode_wid :
    decodesTo [0x0D000000, 0x3F800000] (.widRst 0x3F800000) = true ∧
    decodesTo [0x0D100001, 0x3F800000, 0x40000000] (.widCfg true 0x3F800000 0x40000000) = true ∧
    decodesTo [0x0D220000, 0x3F800000, 0x40000000] (.widProc 2 0x3F800000 0x40000000) = true := by decide +kernel

theorem test_decode_os :
    decodesTo [0x0E000000] (.osRst) = true ∧
    decodesTo [0x0E210000, 0x3F800000] (.osUp 1 0x3F800000) = true ∧
    decodesTo [0x0E310000, 0x3F800000, 0x40000000, 0x40400000, 0x40800000] (.osDown 1 0x3F800000 0x40000000 0x40400000 0x40800000) = true := by decide +kernel

theorem test_decode_lim :
    decodesTo [0x0F000000, 0x3F800000] (.limRst 0x3F800000) = true ∧
    decodesTo [0x0F100000, 0x3F800000, 0x40000000, 0x40400000] (.limCfg 0x3F800000 0x40000000 0x40400000) = true ∧
    decodesTo [0x0F210000, 0x3F800000] (.limProc 1 0x3F800000) = true := by decide +kernel

theorem test_decode_xn :
    decodesTo [0x10000000, 0x3F800000] (.xnRst 0x3F800000) = true ∧
    decodesTo [0x10100000, 0x3F800000, 0x40000000, 0x40400000, 0x40800000, 0x40A00000, 0x40C00000, 0x40E00000] (.xnCfg 0x3F800000 0x40000000 0x40400000 0x40800000 0x40A00000 0x40C00000 0x40E00000) = true ∧
    decodesTo [0x10210000, 0x3F800000] (.xnAcc 1 0x3F800000) = true ∧
    decodesTo [0x10300000] (.xnAnalyze) = true := by decide +kernel

theorem test_decode_pipe :
    decodesTo [0x11000001, 0x3F800000] (.pipeRst true 0x3F800000) = true ∧
    decodesTo [0x11100000, 0x3F800000, 0x40000000, 0x40400000, 0x40800000, 0x40A00000] (.pipeCfg 0x3F800000 0x40000000 0x40400000 0x40800000 0x40A00000) = true ∧
    decodesTo [0x11200000, 0x3F800000, 0x40000000] (.pipeFrame [0x3F800000, 0x40000000]) = true ∧
    decodesTo [0x11300000] (.pipeBegin) = true ∧
    decodesTo [0x11300100] (.pipeEnd) = true ∧
    decodesTo [0x11300200] (.pipeDeinit) = true ∧
    decodesTo [0x11300300] (.pipeSave) = true ∧
    decodesTo [0x11300400, 2, 0x3F800000, 0x40000000] (.pipeRestore 2 [0x3F800000, 0x40000000]) = true ∧
    decodesTo [0x1140000E] (.rd .pipe 0 0 14) = true ∧
    decodesTo [0x1150000E, 0x7E] (.wr .pipe 0 0 14 0x7E) = true := by decide +kernel

/-- The rows of the validation file's table of illegal words: reserved unit, reserved OP, no such row, a field that must
be 0, a mode out of range, a PIPE sub-operation out of range. -/
theorem test_decode_refuses :
    refusedFor [0x12000000] .reservedUnit 0 = true ∧ refusedFor [0x00600000] .reservedOp 0 = true ∧
    refusedFor [0x00300000] .noSuchRow 0 = true ∧ refusedFor [0x0E100000] .noSuchRow 0 = true ∧
    refusedFor [0x00200001, 0] .fieldNotZero 1 = true ∧ refusedFor [0x00000100, 0] .fieldNotZero 1 = true ∧
    refusedFor [0x01100005, 0, 0, 0] .reservedMode 3 = true ∧ refusedFor [0x02100003, 0, 0, 0] .reservedMode 3 = true ∧
    refusedFor [0x11300500] .reservedPipeAux 0 = true := by decide +kernel

/-! ### RST: rate 48000.0 accepted, a rate that is no rate refused (rules R151, R422) -/

theorem test_rst_unit_1 :
    reply .reset (.envRst 0x473B8000) = [0] ∧ reply .reset (.envRst 0) = [4] ∧
    reply .reset (.bqRst 0x473B8000) = [0] ∧ reply .reset (.bqRst 0x7FC00000) = [4] ∧
    reply .reset (.svfRst 0x493B8000) = [0] ∧ reply .reset (.svfRst 0x493B8001) = [4] ∧
    reply .reset (.gateRst 0x473B8000) = [0] ∧ reply .reset (.gateRst 0xBF800000) = [4] ∧
    reply .reset (.agcRst 1) = [0] ∧ reply .reset (.agcRst 0x80000000) = [4] ∧
    reply .reset (.deessRst 0x473B8000) = [0] ∧ reply .reset (.deessRst 0) = [4] := by decide +kernel

theorem test_rst_unit_2 :
    reply .reset (.compRst 0x473B8000) = [0] ∧ reply .reset (.compRst 0x7F800000) = [4] ∧
    reply .reset (.fetRst 0x473B8000) = [0] ∧ reply .reset (.fetRst 0) = [4] ∧
    reply .reset (.satRst 0x473B8000) = [0] ∧ reply .reset (.satRst 0) = [4] ∧
    reply .reset (.widRst 0x473B8000) = [0] ∧ reply .reset (.widRst 0) = [4] ∧
    reply .reset (.xnRst 0x473B8000) = [0] ∧ reply .reset (.xnRst 0) = [4] := by decide +kernel

/-- The capacities of rule R81 at 1000.0: PITCH 204, DLY 2016, LIM 14; no register is left to be cleared. -/
theorem test_rst_memories :
    ((after .reset (.pitchRst 0x447A0000)).pitch.ch.map (fun c => c.mem.cap)) = [204, 204] ∧
    ((after .reset (.dlyRst 0x447A0000)).dly.ch.map (fun c => (c.current, c.mem.cap))) =
      [(0x40000000, 2016), (0x40000000, 2016)] ∧
    ((after .reset (.limRst 0x447A0000)).lim.ch.map (fun c => c.lb.cap)) = [14, 14] ∧
    ((after .reset (.fdnRst 0x447A0000)).fdn.ch.map (fun c => c.lb.map (fun m => m.cap))) =
      [List.replicate 8 91, List.replicate 8 91] ∧
    (after .reset .osRst).os.life.active = true := by decide +kernel

/-- Vector B18.1 at 44100.0 and the row `WR DLY.WPOS 2016` of Part D: the delay ring has 16 guard cells. -/
theorem test_dly_capacity :
    ((after .reset (.dlyRst 0x472C4400)).dly.ch.map (fun c => c.mem.cap)) = [88216, 88216] ∧
    reply (after .reset (.dlyRst 0x447A0000)) (.wr .dly 0 0 5 0x7E0) = [4] ∧
    reply (after .reset (.dlyRst 0x447A0000)) (.wr .dly 0 0 5 0x7DF) = [0] := by decide +kernel

/-- Vector B13.3 at 8.0: every length is clamped to 1. -/
theorem test_rvs_rst : (after .reset (.rvsRst 0x41000000)).rvs.clen = List.replicate 8 1 ∧
    (after .reset (.rvsRst 0x41000000)).rvs.alen = List.replicate 4 1 := by decide +kernel

/-! ### ENV (Part C program P1, vectors B1) -/

theorem test_env_cfg : (after ready (.envCfg 0 0)).env.C = ⟨0, 0⟩ := by decide +kernel

/-- `ENV` with A = 0.5 and R = 0.75. -/
def envState (e : Word) : State := { ready with env := { ready.env with C := ⟨0x3F000000, 0x3F400000⟩, envelope := [e, 0] } }

theorem test_env_proc : reply (envState 0) (.envProc 0 0x3F800000) = [0x3F000000, 0] ∧
    reply (envState 0x3F400000) (.envProc 0 0) = [0x3F100000, 0] := by decide +kernel

/-! ### BQ and SVF (vectors B2.1, B3.1, B3.2) -/

theorem test_bq_cfg : ((after ready (.bqCfg 2 .lowPass 0x447A0000 0x3F800000 0)).bqAt 2).P =
    ⟨.lowPass, 0x447A0000, 0x3F800000, 0⟩ := by decide +kernel

def bqState (t : BqTaps) : State := { ready with bq := ready.bq.set 0 { ready.bqAt 0 with
  C := ⟨0x3F000000, 0x3E800000, 0, 0xBF000000, 0⟩, taps := [t, BqTaps.zero] } }

theorem test_bq_proc : reply (bqState ⟨0, 0, 0, 0⟩) (.bqProc 0 0 0x3F800000) = [0x3F000000, 0] ∧
    reply (bqState ⟨0x3F800000, 0, 0x3F000000, 0⟩) (.bqProc 0 0 0) = [0x3F000000, 0] := by decide +kernel

theorem test_bq_goff : reply .reset (.bqGoff 0 0) = [2] ∧
    ((after bare (.bqGoff 3 0x40C00000)).bqAt 3).gainOffDb = 0x40C00000 := by decide +kernel

theorem test_svf_cfg : ((after ready (.svfCfg 0 .highPass 0 0x3F800000 0)).svfAt 0).C =
    ⟨0, 0x3F000000, 0x3F800000, 0⟩ := by decide +kernel

def svfState (ty : SvfType) (t : SvfS) : State := { ready with svf := ready.svf.set 0 { ready.svfAt 0 with
  P := ⟨ty, 0, 0, 0⟩, C := ⟨0x3F800000, 0x3F800000, 0x40800000, 0x40400000⟩, ch := [t, SvfS.zero] } }

theorem test_svf_proc : reply (svfState .lowPass ⟨0, 0⟩) (.svfProc 0 0 0x3F800000) = [0x3E800000, 0] ∧
    reply (svfState .peaking ⟨0, 0⟩) (.svfProc 0 0 0x3F800000) = [0x40200000, 0] := by decide +kernel

theorem test_svf_goff : reply .reset (.svfGoff 0 0) = [2] ∧
    ((after bare (.svfGoff 3 0x40C00000)).svfAt 3).gainOffDb = 0x40C00000 := by decide +kernel

/-! ### GATE (Part C program P2, vectors B4.1, B4.2) -/

theorem test_gate_cfg : (after ready (.gateCfg 0 0 0 0x40000000 0 0)).gate.C.holdSamples = 2 ∧
    (after ready (.gateCfg 0 0 0 0x40000000 0 0)).gate.C.openTh = 0x3F800000 := by decide +kernel

def gateState (c : GateS) : State := { ready with gate := { ready.gate with
  C := ⟨0x3F000000, 0x3E800000, 0, 0, 0, 2⟩, ch := [c, GateS.fresh] } }

theorem test_gate_opens : reply (gateState ⟨0, .closed, 0, 0x3F800000⟩) (.gateProc 0 0x3F800000) = [0x3F800000, 0] ∧
    (after (gateState ⟨0, .closed, 0, 0⟩) (.gateProc 0 0x3F800000)).gate.ch.head? =
      some ⟨0x3F800000, .opened, 0, 0x3F800000⟩ := by decide +kernel

theorem test_gate_holds : (after (gateState ⟨0, .opened, 1, 0x3F800000⟩) (.gateProc 0 0)).gate.ch.head? =
      some ⟨0, .opened, 2, 0x3F800000⟩ ∧
    (after (gateState ⟨0, .opened, 2, 0x3F800000⟩) (.gateProc 0 0)).gate.ch.head? =
      some ⟨0, .closed, 0, 0⟩ := by decide +kernel

/-! ### AGC (vectors B5.1, B5.2, B5.5) -/

theorem test_agc_cfg : (after ready (.agcCfg 0 0x40C00000 0 0)).agc.C = ⟨0, 0⟩ := by decide +kernel

def agcState (ext : Bool) (c : AgcS) : State := { ready with agc := { ready.agc with
  K := ⟨ext, 0, 0x40000000⟩, C := ⟨0x3F000000, 0x3F000000⟩, ch := [c, AgcS.fresh] } }

theorem test_agc_proc : reply (agcState true ⟨0, 0x3F800000⟩) (.agcProc 0 0x3F800000) = [0x3FC00000, 0] ∧
    reply (agcState false ⟨0, 0x3F800000⟩) (.agcProc 0 0x38CF9E38) = [0x38CF9E38, 0] := by decide +kernel

theorem test_agc_ext : (after ready (.agcExt false 0)).agc.K = ⟨false, 0, 0x3F800000⟩ ∧
    reply .reset (.agcExt true 0) = [2] := by decide +kernel

/-! ### DEESS (vectors B6.1, B6.4) -/

theorem test_deess_cfg : (after ready (.deessCfg 0 0 0x3F800000 0 0 0)).deess.C =
    ⟨0x3F800000, 0, 0x3F800000, 0, 0, 0, 0x3F3504F3, 0x3F800000⟩ := by decide +kernel

def deessState : State := { ready with deess := { ready.deess with
  C := ⟨0x40000000, 0, 0x3F800000, 0, 0, 0x3F800000, 0x3F800000, 0x40800000⟩ } }

theorem test_deess_proc : reply deessState (.deessProc 0 0x3F800000) = [0x3F800000, 0] ∧
    (after deessState (.deessProc 0 0x3F800000)).deess.ch.head? =
      some ⟨0x3F000000, 0x3F000000, 0x3F400000⟩ := by decide +kernel

/-! ### COMP and FET (vectors B7.1, B7.5, B7.7, B8.2 to B8.4) -/

theorem test_comp_cfg : (after ready (.compCfg 0 0x40800000 0 0 0 0)).comp.C.slope = 0xBF400000 ∧
    (after ready (.compCfg 0 0x3F000000 0 0 0 0)).comp.C.slope = 0 := by decide +kernel

def compState (gain : Word) : State := { ready with comp := { ready.comp with
  C := ⟨0xBF400000, 0x3F000000, 0x3F400000, 0x3F800000⟩, gain := [gain, 0x3F800000] } }

theorem test_comp_proc : reply (compState 0x3F800000) (.compProc 0 0xBF800000) = [0xBF800000, 0] ∧
    reply (compState 0x3F000000) (.compProc 0 0x3F800000) = [0x3F200000, 0] := by decide +kernel

theorem test_fet_cfg : (after ready (.fetCfg true 0 0x3F800000 0 0)).fet.C = ⟨0x3F800000, 0, 0x3F800000, 0, 0⟩ := by
  decide +kernel

def fetState : State := { ready with fet := { ready.fet with
  K := ⟨0, 0x3F000000⟩, C := ⟨0x3F800000, 0xBF400000, 0x3F800000, 0, 0⟩ } }

theorem test_fet_proc : reply fetState (.fetProc 0 0x3F000000) = [0x3F000000, 0] := by decide +kernel

theorem test_fet_thoff : (after bare (.fetThoff 0x41A00000)).fet.K = ⟨0x41A00000, 0x3F800000⟩ := by decide +kernel

/-! ### SAT and WID (vectors B9.1, B9.2, B10.1, B10.2) -/

theorem test_sat_cfg : (after ready (.satCfg .tanh 0x40000000)).sat.P = ⟨0x40000000, .tanh⟩ := by decide +kernel

def satState (ty : SatType) : State := { ready with sat := { ready.sat with
  P := ⟨0x40000000, ty⟩, driveScale := 0x3F800000
  C := ⟨⟨0x3F800000, 0, 0, 0, 0⟩, ⟨0x3F800000, 0, 0, 0, 0⟩⟩ } }

theorem test_sat_proc : reply (satState .cubic) (.satProc 0 0x3E800000) = [0x3EEAAAAB, 0] ∧
    reply (satState .tanh) (.satProc 0 0) = [0, 0] := by decide +kernel

theorem test_sat_dscale : (after bare (.satDscale 0x3F000000)).sat.driveScale = 0x3F000000 ∧
    reply .reset (.satDscale 0) = [2] := by decide +kernel

theorem test_wid_cfg : (after ready (.widCfg true 0x40000000 0)).wid.P = ⟨0x40000000, 0, true⟩ ∧
    (after ready (.widCfg true 0x40000000 0)).wid.k = 0 := by decide +kernel

def widState (mono : Bool) : State := { ready with wid := { ready.wid with P := ⟨0x40000000, 0, mono⟩, k := 0x3F000000 } }

theorem test_wid_proc : reply (widState false) (.widProc 0 0x3F800000 0) = [0x3FC00000, 0xBF000000, 0] ∧
    (after (widState true) (.widProc 0 0x3F800000 0)).wid.pairs = [⟨0x3E800000, 0x3E800000⟩] := by decide +kernel

/-! ### PITCH, DLY and LIM (vectors B11.1, B11.2, B12.1, B12.6, B16.1, B16.4) -/

theorem test_pitch_cfg : (after ready (.pitchCfg 0x42480000 0x40800000)).pitch.C = ⟨0x3F800000, 0, 0x40800000⟩ := by
  decide +kernel

theorem test_pitch_proc : reply { ready with pitch := { ready.pitch with
      C := ⟨0x3F800000, 0, 0x40800000⟩
      ch := [⟨2, 0, ⟨204, [(0, 0x3F800000), (1, 0x40000000)]⟩⟩, ⟨0, 0, Memory.sized 204⟩] } }
    (.pitchProc 0 0x40400000) = [0x3F800000, 0] := by decide +kernel

theorem test_dly_cfg : (after ready (.dlyCfg 0x40800000 0 0x3F800000)).dly.target = 0x40800000 ∧
    ((after { ready with dly := { ready.dly with snap := true } } (.dlyCfg 0x43FA0000 0 0)).dly.ch.map (fun c => c.current)) =
      [0x43FA0000, 0x43FA0000] := by decide +kernel

theorem test_dly_proc : reply { ready with dly := { ready.dly with
      P := ⟨0x40800000, 0, 0x3F800000⟩, target := 0x40800000
      ch := [⟨0x40800000, 4, ⟨2016, [(0, 0x3F800000), (1, 0x40000000), (2, 0x40400000), (3, 0x40800000)]⟩⟩,
        ⟨0x40000000, 0, Memory.sized 2016⟩] } }
    (.dlyProc 0 0x40A00000) = [0x3F800000, 0] := by decide +kernel

theorem test_lim_cfg : (after ready (.limCfg 0 0 0x40000000)).lim.C = ⟨0x3F800000, 0, 2⟩ ∧
    (after ready (.limCfg 0 0 0xC0400000)).lim.C.la = 0 := by decide +kernel

theorem test_lim_proc : reply { ready with lim := { ready.lim with
      C := ⟨0x3F800000, 0x3F000000, 2⟩
      ch := [⟨2, 0x3F800000, ⟨14, [(0, 0x3F000000), (1, 0x3F000000)]⟩⟩, ⟨0, 0x3F800000, Memory.sized 14⟩] } }
    (.limProc 0 0x40000000) = [0x3E800000, 0] := by decide +kernel

/-! ### RVS and FDN (vectors B13.4, B14.4, B14.6) -/

theorem test_rvs_cfg : (after ready (.rvsCfg 0x3F000000 0 0x3F800000)).rvs.P = ⟨0x3F000000, 0, 0x3F800000⟩ := by
  decide +kernel

theorem test_rvs_proc : reply ready (.rvsProc 0 0x3F800000) = [0x3F800000, 0] ∧
    reply ready (.rvsProc 0 0x80000000) = [0, 0] := by decide +kernel

theorem test_fdn_cfg : (after ready (.fdnCfg 0 0 0x3F800000)).fdn.C.fbgain = 0x3F4CCCCD ∧
    (after { ready with params := { std with fdnLenRef := .given [1, 2, 3, 4, 5, 6, 7, 8] } }
      (.fdnCfg 0 0 0x3F800000)).fdn.C.len = List.replicate 8 1 := by decide +kernel

theorem test_fdn_proc : reply { ready with fdn := { ready.fdn with
      P := ⟨0, 0, 0x3F800000⟩, C := ⟨0, List.replicate 8 1⟩
      ch := [⟨1, List.replicate 8 0, List.replicate 8 ⟨91, [(0, 0x3F000000)]⟩⟩,
        ⟨0, List.replicate 8 0, List.replicate 8 (Memory.sized 91)⟩] } }
    (.fdnProc 0 0x3F800000) = [0x3F000000, 0] := by decide +kernel

/-! ### OS and XN (vectors B15.1, B15.2, B17.1, B17.2) -/

theorem test_os_up : reply ready (.osUp 0 0x3F800000) = [0, 0xB81152BB, 0xB917D8CA, 0xB915030D, 0] := by decide +kernel

theorem test_os_down : reply ready (.osDown 0 0 0 0 0x3F800000) = [0, 0] ∧
    reply ready (.osDown 0 0x3F800000 0 0 0) = [0xB815030D, 0] := by decide +kernel

theorem test_xn_cfg : (after ready (.xnCfg 0xC1A00000 0 0 0 0 0 0)).xn.klp = ⟨0, 0, 0, 0, 0, 0⟩ := by decide +kernel

theorem test_xn_acc : (after { ready with xn := { ready.xn with klp := ⟨0x3F000000, 0x3F800000, 0, 0, 0, 0⟩ } }
      (.xnAcc 0 0x3F800000)).xn.acc = ⟨1, 0x3F800000, 0x3F800000, 0x3E800000, 0, 0⟩ := by decide +kernel

theorem test_xn_analyze : reply { ready with xn := { ready.xn with
      acc := ⟨1, 0x3F800000, 0x3F000000, 0, 0x3F800000, 0⟩, out := ⟨0x3F000000, 0, 0, 0xC0999999, 0x3F666666⟩ } }
    .xnAnalyze = [0x3F0CCCCD, 0, 0, 0xC08A3D70, 0x3F68F5C2, 0] := by decide +kernel

/-! ### PIPE, RD and WR (Part C programs P3 to P5) -/

theorem test_pipe_rst : reply .reset (.pipeRst true 0x483B8020) = [4] ∧
    reply inBlock (.pipeRst false 0x472C4400) = [6] ∧
    (after .reset (.pipeRst true 0x447A0000)).gate.life = ⟨true, false, 0x457A0000⟩ ∧
    (after .reset (.pipeRst true 0x447A0000)).dly.life = ⟨true, false, 0x447A0000⟩ := by decide +kernel

theorem test_pipe_cfg : reply ready (.pipeCfg 0x1000 0 0 0 0xFFFFFFFF) = [4] ∧ reply ready (.pipeCfg 0x10 0 0 1 4) = [4] ∧
    (after ready (.pipeCfg 0x10 0 0 1 0xFFFFFFFF)).pipe.P = ⟨0x10, 0, 0, 1, 0xFFFFFFFF⟩ := by decide +kernel

theorem test_pipe_frame : reply inBlock (.pipeFrame [0x3F800000, 0x7FC00001]) = [0x3F800000, 0x7FC00001, 0] ∧
    reply ready (.pipeFrame [0x3F800000, 0x40000000]) = [6] ∧
    reply .reset (.pipeFrame [0x3F800000, 0x40000000]) = [2] := by decide +kernel

theorem test_pipe_begin : (after { ready with pipe := { ready.pipe with P := ⟨0x680, 0, 0, 0, 0xFFFFFFFF⟩ }, lim := { ready.lim with C := ⟨0, 0, 2⟩ } }
      .pipeBegin).pipe.latency = 2 ∧
    reply inBlock .pipeBegin = [6] ∧ reply bare .pipeBegin = [3] := by decide +kernel

theorem test_pipe_end : (after inBlock .pipeEnd).pipe.inBlock = false ∧ reply ready .pipeEnd = [6] := by decide +kernel

theorem test_pipe_deinit : reply inBlock .pipeDeinit = [6] ∧
    (after ready .pipeDeinit).dly.life = ⟨false, true, 0x447A0000⟩ := by decide +kernel

theorem test_pipe_save : reply .reset .pipeSave = [3] ∧ reply inBlock .pipeSave = [6] ∧
    (reply ready .pipeSave).length = 111 := by decide +kernel

theorem test_pipe_restore : reply .reset (.pipeRestore 3 [0, 0, 0]) = [5] ∧
    reply .reset (.pipeRestore 110 ((List.replicate 110 (0 : Word)).set 96 2)) = [5] ∧
    reply .reset (.pipeRestore 110 (List.replicate 110 0)) = [0] := by decide +kernel

theorem test_rd : reply .reset (.rd .env 0 0 4) = [2] ∧ reply bare (.rd .env 0 0 2) = [3] ∧
    reply (envState 0x3F100000) (.rd .env 0 0 4) = [0x3F100000, 0] ∧ reply ready (.rd .env 0 0 0xF0) = [3, 0] := by
  decide +kernel

theorem test_wr : reply ready (.wr .lim 0 0 5 0) = [1] ∧ reply ready (.wr .gate 0 0 13 2) = [4] ∧
    reply ready (.wr .dly 1 0 5 8) = [4] ∧ (after ready (.wr .dly 1 0 5 7)).dly.ch.map (fun c => c.wpos) = [0, 7] := by
  decide +kernel

/-! ### The step -/

/-- The status bits of program P3: Inactive, Unconfigured and Sequence set bits 2, 3 and 6. -/
theorem test_status_bits : (after bare .pipeBegin).pipe.status = 8 ∧ (after inBlock .pipeBegin).pipe.status = 0x40 ∧
    (after { ready with pipe := { ready.pipe with status := 0x4C } } (.wr .pipe 0 0 14 0x7E)).pipe.status = 0 := by
  decide +kernel

theorem test_step : stepReply .reset [0x00000000, 0x473B8000, 0x1140000E] = [0] ∧ stepReply .reset [0x12000000] = [1] ∧
    stepReply .reset [] = [] ∧ stepReply .reset [0x00000000] = [] := by decide +kernel

theorem test_withFetchWord : stepReply (State.reset.withFetchWord 32 0x1140000E) (State.reset.withFetchWord 32 0x1140000E).port.rx =
    [0, 0] := by decide +kernel

/-! ### Witnesses: states and operands that meet the hypotheses of the statements -/

theorem witness_DecodeOfEncodeIsTheCommand : Instr.wellFormed std (.bqProc 1 3 0x3F800000) = true ∧
    Instr.wellFormed std (.pipeRestore 2 [1, 2]) = true ∧ Instr.wellFormed std (.wr .rvs 1 0 34 0) = true := by decide

theorem witness_EncodeOfDecodedIsTheWords : decode std ([0x00210000, 0x3F000000] ++ [7]) = .ok (.envProc 1 0x3F000000, [7]) := by
  decide +kernel

theorem witness_StepRunsTheDecodedCommand :
    decode std [0x11300100, 7] = .ok (.pipeEnd, [7]) ∧
    (Instr.wellFormed std .pipeEnd = true ∧ [0x11300100, 7] = encode .pipeEnd ++ [7]) ∧
    State.reset.port.rx = [] ∧
    (operandCount 2 0x00000000 [] = some 1 ∧ ([] : List Word).length < 1) ∧
    operandCount 2 0x11300400 [] = none := by decide +kernel

theorem witness_IllegalCommandWordsAreDropped :
    0x12 ≤ ((0x12000000 : Word).extractLsb' 24 8).toNat ∧ 6 ≤ ((0x00600000 : Word).extractLsb' 20 4).toNat ∧
    ((0x11300500 : Word).extractLsb' 20 12 = 0x113 ∧ 5 ≤ ((0x11300500 : Word).extractLsb' 8 8).toNat) ∧
    decode std [0x01100005, 0, 0, 0, 9] = .error (.illegal .reservedMode 3) := by decide +kernel

theorem witness_FieldRulesComeFirst : Instr.wellFormed std (.envProc 2 0) = false ∧ ∀ n ws, Instr.envProc 2 0 ≠ .pipeRestore n ws := by
  refine ⟨by decide, fun n ws h => by cases h⟩

theorem witness_StatusRegisterIsSticky :
    (ready.pipe.status &&& 0xFFFFFF81 = 0 ∧ stepReply ready [0x11300100] = [6]) ∧
    (∃ (t : State) (results : List Word), exec .pipeDeinit ready = .next (t.complete results)) ∧
    ∃ t : State, exec .pipeEnd ready = .next t ∧ t.port.tx = ready.port.tx ++ [BitVec.ofNat 32 Raised.sequence.code] :=
  ⟨by decide +kernel, ⟨ready.deinit, [], rfl⟩, ready.raise .sequence, rfl, rfl⟩

theorem witness_PowerOnRegistersHoldNoValue :
    addressOk std .env 0 0 0 = true ∧ addressOk std .env 1 0 4 = true ∧ addressOk std .os 0 0 0xF0 = true ∧
    addressOk std .svf 0 3 0xF0 = true ∧ addressOk std .pipe 0 0 14 = true := by decide

theorem ready_ringsOk : ready.ringsOk := by
  unfold State.ringsOk rvsRingsOk fdnRingsOk ringOk
  decide +kernel

theorem witness_StepKeepsRings : ready.ringsOk ∧ stepReply ready [0x0A200000, 0x3F800000] = [0x3F800000, 0] :=
  ⟨ready_ringsOk, by decide +kernel⟩

theorem witness_StepKeepsThePipelineInvariants :
    ready.pipeImpliesUnits ∧ ready.pipe.life.active = true ∧ ready.pipeLegal ∧ ready.pipe.life.configured = true ∧
    stepReply ready [0x11500000, 0xFFF] = [0] := by
  unfold State.pipeImpliesUnits State.unitsActive State.pipeLegal
  decide +kernel

theorem ready_copiesOk : ready.copiesOk := by
  unfold State.copiesOk
  decide +kernel

theorem ready_unitsActive : ready.unitsActive := by
  unfold State.unitsActive
  decide +kernel

theorem witness_StepKeepsInstancesAndCopies : ready.copiesOk ∧ stepReply ready [0x01000000, 0x447A0000] = [0] :=
  ⟨ready_copiesOk, by decide +kernel⟩

theorem witness_ConfiguredIsNeverCleared : ready.copiesOk ∧ stepReply ready [0x11300200] = [0] :=
  ⟨ready_copiesOk, by decide +kernel⟩

theorem witness_RdReadsOneRegister :
    addressOk std .env 2 0 4 = false ∧
    (addressOk std .env 1 0 4 = true ∧ regClass .env 4 = some .s ∧ RegClass.s.needsActive = true ∧
      (State.reset.access .env 1 0 4).life.active = false ∧ (bare.access .env 1 0 4).life.active = true ∧
      RegClass.s.needsConfigured = false) ∧
    (regClass .env 2 = some .c ∧ (bare.access .env 0 0 2).life.active = true ∧ RegClass.c.needsConfigured = true ∧
      (bare.access .env 0 0 2).life.configured = false ∧ (ready.access .env 0 0 2).life.configured = true) := by
  decide +kernel

theorem witness_WrWritesOneRegister :
    addressOk std .env 0 0 5 = false ∧ readOnlyReg .lim 5 = true ∧
    (addressOk std .gate 1 0 13 = true ∧ readOnlyReg .gate 13 = false ∧ regClass .gate 13 = some .s ∧
      (State.reset.access .gate 1 0 13).life.active = false ∧ (ready.access .gate 1 0 13).life.active = true ∧
      ((ready.access .gate 1 0 13).write 2).isNone = true ∧ ((ready.access .gate 1 0 13).write 1).isSome = true) ∧
    (regClass .gate 6 = some .c ∧ (bare.access .gate 0 0 6).life.active = true ∧
      (bare.access .gate 0 0 6).life.configured = false) := by
  decide +kernel

theorem witness_WrittenRegisterReadsBack :
    ready.copiesOk ∧ ¬(UnitId.env = .pipe ∧ 4 = 14) ∧ ∃ t, ready.writeReg .env 1 0 4 0x3F800000 = .ok t :=
  ⟨ready_copiesOk, by decide, ⟨_, rfl⟩⟩

theorem witness_WrChangesNoOtherRegister :
    ready.copiesOk ∧ (∃ t, ready.writeReg .bq 1 3 12 0x3F800000 = .ok t) ∧
    addressOk std .bq 1 2 12 = true ∧ (UnitId.bq, 1, 2, 12) ≠ (UnitId.bq, 1, 3, 12) :=
  ⟨ready_copiesOk, ⟨_, rfl⟩, by decide, by decide⟩

theorem witness_RegistersAcceptTheirValuesOnly :
    1 < ready.pitch.ch.length ∧ 1 < ready.dly.ch.length ∧ 1 < ready.lim.ch.length ∧ 1 < ready.fdn.ch.length ∧
    1 < ready.rvs.ch.length ∧ (7 < 8 ∧ 3 < 4) ∧ ready.params.neq < 32 ∧
    ((regClass .rvs 30).isSome = true ∧ readOnlyReg .rvs 30 = false ∧ ¬(15 ≤ 30 ∧ 30 ≤ 22 ∨ 31 ≤ 30)) ∧
    ((regClass .pipe 5).isSome = true ∧ readOnlyReg .pipe 5 = false) := by decide +kernel

/-- What a statement about RST asks: rates up to `FS_MAX` are accepted, `+0.0` and what lies above `FS_MAX` are not. -/
abbrev rateCases : Prop :=
  (F32.lt F32.zero 1 = true ∧ F32.le 1 std.fsMax = true) ∧
  (F32.lt F32.zero 0x493B8000 = true ∧ F32.le 0x493B8000 std.fsMax = true) ∧
  ¬(F32.lt F32.zero 0 = true ∧ F32.le 0 std.fsMax = true) ∧
  ¬(F32.lt F32.zero 0x493B8001 = true ∧ F32.le 0x493B8001 std.fsMax = true)

theorem witness_RstOfUnitsWithoutMemory : rateCases := by decide +kernel
theorem witness_RstSizesAndClearsMemories : rateCases ∧ State.reset.dly.life.configured = false ∧
    ready.dly.life.configured = true := by decide +kernel

theorem witness_CoefficientFormulas : (7 < 8 ∧ 3 < 4) ∧ 3 < std.nap ∧ ¬3 < ({ std with nap := 2 } : Params).nap := by
  decide +kernel

theorem witness_CfgWritesParametersAndCoefficients :
    State.reset.dly.life.active = false ∧ (ready.dly.life.active = true ∧ ready.dly.snap = false) ∧
    ((after .reset (.dlyRst 0x447A0000)).dly.life.active = true ∧ (after .reset (.dlyRst 0x447A0000)).dly.snap = true) := by
  decide +kernel

theorem witness_ControlInputsAreWrittenWhileActive :
    State.reset.agc.life.active = false ∧ bare.agc.life.active = true ∧ State.reset.fet.life.active = false ∧
    bare.fet.life.active = true ∧ State.reset.sat.life.active = false ∧ bare.sat.life.active = true := by decide +kernel

theorem witness_FilterInstancesAreResetAndConfigured : rateCases ∧
    (3 : BitVec 8).toNat < std.neq ∧ (State.reset.bqAt 3).life.active = false ∧ (ready.bqAt 3).life.active = true ∧
    (State.reset.svfAt 3).life.active = false ∧ (ready.svfAt 3).life.active = true := by decide +kernel

/-- What the statement of a PROC asks: a channel that does not exist and one that does, a unit that is inactive, one
that is not configured, and one that is ready. -/
abbrev procCases (life : State → Life) : Prop :=
  channelOk std 2 = false ∧ channelOk std 1 = true ∧ (1 : BitVec 4).toNat < ready.params.nch ∧
  (life State.reset).active = false ∧ ((life bare).active = true ∧ (life bare).configured = false) ∧
  ((life ready).active = true ∧ (life ready).configured = true)

theorem witness_EnvelopeFollowsTheInput : procCases (fun s => s.env.life) := by decide +kernel
theorem witness_BiquadRunsItsRecurrence : procCases (fun s => (s.bqAt 3).life) ∧ bandOk std 4 = false ∧ bandOk std 3 = true := by
  decide +kernel
theorem witness_StateVariableFilterStep : procCases (fun s => (s.svfAt 3).life) ∧ bandOk std 4 = false ∧ bandOk std 3 = true := by
  decide +kernel
theorem witness_GateDetectsThenSmooths : procCases (fun s => s.gate.life) := by decide +kernel
theorem witness_AutoLevelSeeksItsTarget : procCases (fun s => s.agc.life) ∧
    (agcState true ⟨0, 0⟩).agc.K.extMode = true ∧ (agcState false ⟨0, 0⟩).agc.K.extMode = false ∧
    F32.lt (envStep ready.ctx 0 0 0 (F32.abs 0x38CF9E38)) 0x38D1B717 = true ∧
    F32.lt (envStep ready.ctx 0 0 0 (F32.abs 0x38D1B717)) 0x38D1B717 = false := by decide +kernel
theorem witness_DeEsserActsOnTheHighBand : procCases (fun s => s.deess.life) := by decide +kernel
theorem witness_SoftKneeCompressorStep : procCases (fun s => s.comp.life) := by decide +kernel
theorem witness_FetCompressorStep : procCases (fun s => s.fet.life) := by decide +kernel
theorem witness_SaturatorShapesBetweenItsFilters : procCases (fun s => s.sat.life) := by decide +kernel
theorem witness_WidenerScalesTheSide : procCases (fun s => s.wid.life) ∧ pairOk std 1 = false ∧ pairOk std 2 = false ∧
    ((0 : BitVec 4).toNat % 2 = 0 ∧ (0 : BitVec 4).toNat + 1 < ready.params.nch) ∧
    (widState true).wid.P.monoBass = true ∧ (widState false).wid.P.monoBass = false := by decide +kernel
theorem witness_PitchReadsTwoTaps : procCases (fun s => s.pitch.life) := by decide +kernel
theorem witness_DelayReadsThenWrites : procCases (fun s => s.dly.life) := by decide +kernel
theorem witness_LimiterGainOnTheDelayedSample : procCases (fun s => s.lim.life) := by decide +kernel
theorem witness_SupervisorGathersStatistics : procCases (fun s => s.xn.life) := by decide +kernel
theorem witness_SchroederReverbStep : procCases (fun s => s.rvs.life) ∧
    (ready.rvs.clen.length = (ready.rvs.ch.map (fun c => c.combs.length)).getD 1 0) ∧
    (ready.rvs.alen.length = (ready.rvs.ch.map (fun c => c.aps.length)).getD 1 0) ∧
    (4 ≤ (ready.rvs.ch.map (fun c => c.aps.length)).getD 1 0) := by decide +kernel
theorem witness_FeedbackDelayNetworkStep : procCases (fun s => s.fdn.life) ∧ ready.copiesOk :=
  ⟨by decide +kernel, ready_copiesOk⟩
theorem witness_OversamplerConvolvesItsHistories : std.nch ≤ (2 : BitVec 4).toNat ∧ (1 : BitVec 4).toNat < std.nch ∧
    State.reset.os.life.active = false ∧ ready.os.life.active = true := by decide +kernel

theorem witness_GateHoldsBeforeItCloses :
    (⟨0, .opened, 0, 0⟩ : GateS).state = .opened ∧ (⟨0, .opened, 0, 0⟩ : GateS).holdCnt = 0 ∧
    [(0 : F32), 0].length ≤ (⟨0, 0, 0, 0, 0, 2⟩ : GateC).holdSamples.toNat := by decide

theorem witness_FeedbackClipStaysWithinTwo :
    F32.le 0x80000000 0x40400000 = true ∧ F32.isNaN 0x7FC00001 = true ∧ F32.isNaN 0x40400000 = false ∧
    F32.isZero 0x80000000 = true ∧ ready.ctx.softclip2 = .standard ∧
    F32.le (F32.abs 0xC0000000) F32.two = true := by decide +kernel

theorem witness_RingReturnsTheSampleWrittenBefore :
    (⟨4, [(1, 5)]⟩ : Memory).wf = true ∧ (3 : Word).toNat < (⟨4, [(1, 5)]⟩ : Memory).cap ∧
    (⟨4, [(1, 5)]⟩ : Memory).cap ≤ 2 ^ 32 ∧ [(1 : Word), 2, 3].length < (⟨4, [(1, 5)]⟩ : Memory).cap := by decide

theorem witness_SupervisorAnalyzesTheBlock : State.reset.xn.life.active = false ∧
    (bare.xn.life.active = true ∧ bare.xn.life.configured = false) ∧
    (ready.xn.life.active = true ∧ ready.xn.life.configured = true ∧ ready.xn.acc.n = 0) ∧
    (after ready (.xnAcc 0 0)).xn.acc.n ≠ 0 ∧ (after ready (.xnAcc 0 0)).xn.life = on := by decide +kernel

theorem witness_PipeResetResetsEveryUnit :
    (inBlock.pipe.life.active = true ∧ inBlock.pipe.inBlock = true) ∧
    (¬(ready.pipe.life.active = true ∧ ready.pipe.inBlock = true) ∧
      ¬(F32.lt F32.zero 0x483B8020 = true ∧ F32.le (ready.ctx.mul F32.four 0x483B8020) ready.params.fsMax = true)) ∧
    (rateOk std 0x483B8000 = true ∧ rateOk std (ready.ctx.mul F32.four 0x483B8000) = true) := by decide +kernel

theorem witness_PipeConfigurationIsChecked :
    (0x1000 : Word) >>> 12 ≠ 0 ∧ (4 : Word) >>> 2 ≠ 0 ∧ (ready.params.neq < 32 ∧ (0x10 : Word) >>> ready.params.neq ≠ 0) ∧
    ((4 : Word) ≠ 0xFFFFFFFF ∧ ready.params.neq ≤ (4 : Word).toNat) ∧
    ¬((0xFFF : Word) >>> 12 ≠ 0 ∨ (3 : Word) >>> 2 ≠ 0 ∨
      (ready.params.neq < 32 ∧ ((15 : Word) >>> ready.params.neq ≠ 0 ∨ (15 : Word) >>> ready.params.neq ≠ 0)) ∨
      ((3 : Word) ≠ 0xFFFFFFFF ∧ ready.params.neq ≤ (3 : Word).toNat)) := by decide +kernel

/-- The block inside a block with every stage on, each reverb and compressor chosen, every band on. -/
def busy (sel : Word) : State := State.within ready ⟨0xFFF, sel, 0x5, 0xF, 0⟩

theorem witness_PipeFrameCompletesInsideABlock :
    [(1 : Word), 2].length = ready.params.nch ∧ State.reset.pipe.life.active = false ∧
    (ready.pipe.life.active = true ∧ ready.pipe.inBlock = false) ∧
    ((busy 0).pipe.life.active = true ∧ (busy 0).pipe.inBlock = true ∧ (busy 0).copiesOk ∧ (busy 0).unitsActive ∧
      (busy 0).selectedReady (busy 0).pipe.L = true) ∧
    (inBlock.pipe.inBlock = true ∧ inBlock.pipe.L.en = 0 ∧ inBlock.pipe.osEn = false) := by
  unfold State.copiesOk State.unitsActive
  decide +kernel

/-- A frame with every stage off completes; so does one with the compressor and the reverb on, whichever is chosen. -/
theorem frame_completes (s : State) (xs : List Word) (h : (match s.pipeFrame xs with | .ok _ => true | .error _ => false) = true)
    (hn : xs.length = s.params.nch) : ∃ t ys, exec (.pipeFrame xs) s = .next (State.complete t ys) := by
  cases hf : s.pipeFrame xs with
  | error e => rw [hf] at h; cases h
  | ok r => exact ⟨r.1, r.2, by cases r; simp [exec, execPipeFrame, hn, hf]⟩

theorem witness_DisabledStageKeepsItsState :
    (∃ t ys, exec (.pipeFrame [1, 2]) inBlock = .next (State.complete t ys)) ∧
    (inBlock.pipe.L.enabled .gate = false ∧ inBlock.pipe.L.enabled .eq = false ∧ inBlock.pipe.osEn = false) ∧
    (∃ t ys, exec (.pipeFrame [1, 2]) (State.within ready ⟨0x120, 3, 0, 0, noMudBand⟩) = .next (State.complete t ys)) ∧
    ((State.within ready ⟨0x120, 3, 0, 0, noMudBand⟩).pipe.L.selectsFet = true ∧
      (State.within ready ⟨0x120, 3, 0, 0, noMudBand⟩).pipe.L.selectsFdn = true) ∧
    (∃ t ys, exec (.pipeFrame [1, 2]) (State.within ready ⟨0x110, 0, 1, 0, noMudBand⟩) = .next (State.complete t ys)) ∧
    ((State.within ready ⟨0x110, 0, 1, 0, noMudBand⟩).pipe.L.bandIsSvf 0 = true ∧
      (State.within ready ⟨0x110, 0, 1, 0, noMudBand⟩).pipe.L.bandIsSvf 1 = false ∧
      (State.within ready ⟨0x110, 0, 1, 0, noMudBand⟩).pipe.L.bandEnabled 2 = false) := by
  refine ⟨frame_completes _ _ (by decide +kernel) rfl, by decide +kernel, frame_completes _ _ (by decide +kernel) rfl,
    by decide +kernel, frame_completes _ _ (by decide +kernel) rfl, by decide +kernel⟩

/-- A block of one channel inside a block with one stage on. -/
def solo (en sel : Word) : State := State.within (block { std with nch := 1 } on) ⟨en, sel, 0, 0, noMudBand⟩

/-- The busy block with an oversampled bracket. -/
def oversampled : State := { busy 3 with pipe := { (busy 3).pipe with osEn := true } }

theorem witness_OneStageFrameIsThatPROC :
    (solo 1 0).params.nch = 1 ∧ (solo 1 0).pipe.life.active = true ∧ (solo 1 0).pipe.inBlock = true ∧
    (solo 1 0).pipe.osEn = false ∧ (solo 1 0).pipe.L.en = 1 ∧ (solo 0x400 0).pipe.L.en = 0x400 ∧
    ((solo 0x20 0).pipe.L.sel.getLsbD 0 = false ∧ (solo 0x20 1).pipe.L.sel.getLsbD 0 = true) ∧
    ((solo 0x100 1).pipe.L.sel.getLsbD 1 = false ∧ (solo 0x100 2).pipe.L.sel.getLsbD 1 = true) ∧
    ((1 : BitVec 4).toNat < ready.params.nch ∧ (3 : BitVec 8).toNat < ready.params.neq) ∧
    ((0 : BitVec 4).toNat % 2 = 0 ∧ (0 : BitVec 4).toNat + 1 < ready.params.nch) ∧
    ([(1 : Word), 2].length = (busy 0).params.nch ∧ (busy 0).pipe.life.active = true ∧ (busy 0).pipe.inBlock = true) ∧
    ([(1 : Word), 2].length = oversampled.params.nch ∧ oversampled.pipe.life.active = true ∧
      oversampled.pipe.inBlock = true ∧ oversampled.pipe.osEn = true) := by decide +kernel

/-- A block about to begin, with configurations to latch and latched. -/
def pending (P L : PipeP) : State := { ready with pipe := { ready.pipe with P := P, L := L } }

/-- The supervisor on and staying on, its mud band moving from 3 to 0. -/
def moving : State := pending ⟨0x800, 0, 0, 0, 0⟩ ⟨0x800, 3, 0, 0, 3⟩

/-- The supervisor about to be switched off. -/
def leaving : State := pending ⟨0, 0, 0, 0, noMudBand⟩ ⟨0x800, 3, 0, 0, noMudBand⟩

/-- The supervisor about to be switched off, its mud band staying 2. -/
def releasing : State := pending ⟨0, 0, 0, 0, 2⟩ ⟨0x800, 3, 0, 0, 2⟩

theorem releasing_ok : releasing.copiesOk ∧ releasing.unitsActive ∧ releasing.latchedBandOk ∧ releasing.pipeLegal ∧
    releasing.selectedReady releasing.pipe.P = true ∧ releasing.pipe.inBlock = false := by
  unfold State.copiesOk State.unitsActive State.latchedBandOk State.pipeLegal
  decide +kernel

/-- What rule R391 does to the band that stays when the bit falls: its offset returns to `+0.0`. -/
theorem test_pipe_begin_releases : ((after { releasing with
      bq := releasing.bq.set 2 { releasing.bqAt 2 with gainOffDb := 0xC0C00000 } } .pipeBegin).bqAt 2).gainOffDb = 0 := by
  decide +kernel

theorem moving_ok : moving.copiesOk ∧ moving.unitsActive ∧ moving.latchedBandOk := by
  unfold State.copiesOk State.unitsActive State.latchedBandOk
  decide +kernel

/-- Every unit configured but the last SVF: a configuration that selects it is not ready, one that takes the BQ of that
band, or leaves the band or the EQ out, is (rule R393). -/
theorem test_selected_band :
    (let s := { ready with svf := ready.svf.set 3 { ready.svfAt 3 with life := half } }
     [s.selectedReady ⟨0x10, 0, 8, 8, noMudBand⟩, s.selectedReady ⟨0x10, 0, 0, 8, noMudBand⟩,
      s.selectedReady ⟨0x10, 0, 8, 7, noMudBand⟩, s.selectedReady ⟨0, 0, 8, 8, noMudBand⟩]) =
      [false, true, true, true] := by decide +kernel

theorem witness_PipeBeginLatchesTheConfiguration :
    (State.reset.pipe.life.active = false ∧ (bare.pipe.life.active = true ∧ bare.pipe.life.configured = false) ∧
      inBlock.pipe.inBlock = true ∧ bare.selectedReady ⟨1, 0, 0, 0, noMudBand⟩ = false) ∧
    (moving.copiesOk ∧ moving.unitsActive ∧ moving.latchedBandOk) ∧
    (moving.pipe.life.active = true ∧ moving.pipe.life.configured = true ∧ moving.pipe.inBlock = false ∧
      moving.selectedReady moving.pipe.P = true ∧ moving.pipeLegal ∧ moving.pipe.P.en.getLsbD 11 = true ∧
      moving.pipe.P.eqMudBand ≠ 0xFFFFFFFF ∧ moving.pipe.L.eqMudBand ≠ 0xFFFFFFFF ∧
      moving.pipe.P.eqMudBand ≠ moving.pipe.L.eqMudBand) ∧
    (leaving.selectedReady leaving.pipe.P = true ∧ leaving.pipe.P.en.getLsbD 11 = false ∧
      leaving.pipe.L.en.getLsbD 11 = true) ∧
    (releasing.copiesOk ∧ releasing.unitsActive ∧ releasing.latchedBandOk ∧ releasing.pipeLegal ∧
      releasing.selectedReady releasing.pipe.P = true ∧ releasing.pipe.inBlock = false) ∧
    (releasing.pipe.P.en.getLsbD 11 = false ∧ releasing.pipe.L.en.getLsbD 11 = true ∧
      releasing.pipe.L.eqMudBand = releasing.pipe.P.eqMudBand ∧ releasing.pipe.P.eqMudBand ≠ 0xFFFFFFFF) ∧
    (ready.pipe.P.en.getLsbD 11 = false ∧ ready.pipe.L.en.getLsbD 11 = false ∧
      ready.selectedReady ready.pipe.P = true) := by
  refine ⟨by decide +kernel, moving_ok, ?_, by decide +kernel, releasing_ok, by decide +kernel, by decide +kernel⟩
  unfold State.pipeLegal
  decide +kernel

/-- The supervisor on inside a block, with band 3 its mud band. -/
def ending : State := State.within ready ⟨0x800, 3, 0, 0, 3⟩

theorem witness_PipeEndAnalyzesAndDistributes :
    State.reset.pipe.life.active = false ∧ (ready.pipe.life.active = true ∧ ready.pipe.inBlock = false) ∧
    (inBlock.pipe.inBlock = true ∧ inBlock.pipe.L.en.getLsbD 11 = false) ∧
    (ending.pipe.life.active = true ∧ ending.pipe.inBlock = true ∧ ending.pipe.L.en.getLsbD 11 = true ∧ ending.copiesOk ∧
      ending.unitsActive ∧ ending.xn.life.configured = true ∧ ending.latchedBandOk ∧
      ending.pipe.L.eqMudBand ≠ 0xFFFFFFFF) := by
  unfold State.copiesOk State.unitsActive State.latchedBandOk
  decide +kernel

/-- `PIPE.DEINIT`, `PIPE.SAVE` and `PIPE.RESTORE`: inside a block and outside. -/
theorem witness_PipeDeinitClearsActiveOnly :
    (inBlock.pipe.life.active = true ∧ inBlock.pipe.inBlock = true) ∧
    ¬(ready.pipe.life.active = true ∧ ready.pipe.inBlock = true) := by decide +kernel

theorem witness_SaveReturnsTheParametersInOrder : State.reset.allConfigured = false ∧ ready.allConfigured = true := by
  decide +kernel

theorem witness_RestoreAcceptsWellFormedStreams : (List.replicate 110 (0 : Word)).length = 70 + 10 * std.neq ∧
    (parseSaved std (List.replicate 110 0)).isSome = true ∧
    (parseSaved std ((List.replicate 110 0).set 96 2)).isSome = false := by decide +kernel

theorem witness_RestoreIsAllOrNothing :
    (3 : Word).toNat ≠ 70 + 10 * ready.params.neq ∧ (110 : Word).toNat = 70 + 10 * ready.params.neq ∧
    (parseSaved ready.params ((List.replicate 110 0).set 109 4)).isNone = true ∧
    (parseSaved ready.params ((List.replicate 110 0).set 109 3)).isSome = true ∧ ready.copiesOk :=
  ⟨by decide, by decide, by decide +kernel, by decide +kernel, ready_copiesOk⟩

theorem witness_SaveThenRestoreKeepsTheParameters :
    ready.params.wf = true ∧ ready.copiesOk ∧ ready.pipeLegal ∧
    ∃ ws, exec .pipeSave ready = .next (ready.complete ws) := by
  refine ⟨by decide +kernel, ready_copiesOk, ?_, _, rfl⟩
  unfold State.pipeLegal
  decide +kernel

theorem witness_RoundingIsToTheNearest :
    (0 < 2 ∧ roundMag 1 2 < 0x7F800000 ∧ 1 < 0x7F800000) ∧
    (((F32.units (F32.ofParts false (roundMag 1 2)) * 2 : Int) - 1).natAbs =
      ((F32.units (F32.ofParts false 1) * 2 : Int) - 1).natAbs ∧ 1 ≠ roundMag 1 2) ∧
    (F32.isFinite F32.one = true ∧ F32.isFinite 0xBF800000 = true ∧
      F32.signedUnits F32.one + F32.signedUnits 0xBF800000 = 0 ∧ F32.signedUnits F32.one + F32.signedUnits F32.one ≠ 0) ∧
    (F32.isZero F32.one = false ∧ F32.isZero F32.negZero = true) ∧
    (F32.isNaN 0x7FC00000 = true ∧ F32.isInf F32.negInf = true ∧ F32.isNaN F32.negInf = false ∧
      F32.isInf F32.one = false ∧ (F32.isInf F32.negInf != F32.isInf F32.one) = true ∧
      F32.isFinite F32.posInf = false) ∧ 0xFFFFFFFF < 2 ^ 32 := by decide +kernel

theorem witness_PeakingAtZeroGainIsNeutral :
    F32.isZero 0x80000000 = true ∧
    (let p := ready.ctx
     let w0 := p.div (p.mul (p.mul F32.two F32.pi) 0) 0x473B8000
     let alpha := p.div (Num.sin w0) (p.mul F32.two (F32.fmax 0x3F800000 0x3DCCCCCD))
     F32.isNaN alpha = false ∧ F32.isFinite (p.add F32.one (p.div alpha F32.one)) = true ∧
     F32.isZero (p.add F32.one (p.div alpha F32.one)) = false) := by decide +kernel

end Sys2Proof.Tests
end

section
/-! Every command completes or raises (rules R420, R421, R425): what no command changes before its end, operation by
operation, then command by command. -/

namespace Sys2Proof.Machine

/-! ### The shell of a state: what only the end of a command moves -/

/-- The build, the port, the free-value counter and `PIPE.STATUS`: no command changes them but by its end (rules R21,
R425), and WR of `PIPE.STATUS` the last. -/
def State.shell (s : State) : Params × Port × Nat × Word := (s.params, s.port, s.free, s.pipe.status)

theorem State.shell_eq_iff {s t : State} : t.shell = s.shell ↔
    t.params = s.params ∧ t.port = s.port ∧ t.free = s.free ∧ t.pipe.status = s.pipe.status := by
  simp [State.shell]

/-- Where the computation at `s` succeeds, the state that `π` finds in its outcome has the shell of `s`. -/
def KeepsShell {α : Type} (π : α → State) (s : State) (x : Except Raised α) : Prop :=
  ∀ a, x = .ok a → (π a).shell = s.shell

namespace KeepsShell

variable {α β : Type} {π : α → State} {ρ : β → State} {s : State}

theorem pure {a : α} (h : (π a).shell = s.shell) : KeepsShell π s (.ok a) := by
  rintro _ ⟨⟩
  exact h

/-- Sequencing: the rest runs at the state that the first part leaves. -/
theorem bind {x : Except Raised α} {f : α → Except Raised β} (hx : KeepsShell π s x)
    (hf : ∀ a, KeepsShell ρ (π a) (f a)) : KeepsShell ρ s (x >>= f) := by
  intro b h
  obtain ⟨a, ha, hb⟩ := Except.bind_eq_ok'.1 h
  exact (hf a b hb).trans (hx a ha)

/-- Sequencing behind a computation with no state in its outcome: a check, or the operation of one unit. -/
theorem after {γ : Type} {x : Except Raised γ} {f : γ → Except Raised β} (hf : ∀ c, KeepsShell ρ s (f c)) :
    KeepsShell ρ s (x >>= f) := by
  intro b h
  obtain ⟨c, -, hb⟩ := Except.bind_eq_ok'.1 h
  exact hf c b hb

theorem ite {P : Prop} [Decidable P] {x y : Except Raised α} (hx : KeepsShell π s x) (hy : KeepsShell π s y) :
    KeepsShell π s (if P then x else y) := by
  split
  · exact hx
  · exact hy

/-- A stage that is skipped changes nothing (rule R390). -/
theorem stage {on : Bool} {f : State → Nat → F32 → Except Raised (State × F32)} {c : Nat} {x : F32}
    (hf : KeepsShell Prod.fst s (f s c x)) : KeepsShell Prod.fst s (Machine.stage on f s c x) :=
  ite hf (pure rfl)

theorem stageAll {on : Bool} {f : State → List F32 → Except Raised (State × List F32)} {xs : List F32}
    (hf : KeepsShell Prod.fst s (f s xs)) : KeepsShell Prod.fst s (Machine.stageAll on f s xs) :=
  ite hf (pure rfl)

/-- A pass over the channels keeps what one channel keeps (rule R389). -/
theorem forChannels {f : State → Nat → F32 → Except Raised (State × F32)}
    (hf : ∀ s c x, KeepsShell Prod.fst s (f s c x)) {c : Nat} {xs : List F32} :
    KeepsShell Prod.fst s (Machine.forChannels f s c xs) := by
  rintro ⟨t, ys⟩ h
  have step : ∀ u c x v y, u.shell = s.shell → f u c x = .ok (v, y) → v.shell = s.shell :=
    fun u c x v y hu hv => (hf u c x _ hv).trans hu
  exact (forChannels_keeps (P := fun u => u.shell = s.shell) step rfl h).1

end KeepsShell

/-! ### The operations of the units -/

section Operations
variable (s : State) (c b : Nat) (x v : F32)

theorem State.gateProc_keepsShell : KeepsShell Prod.fst s (s.gateProc c x) := .after fun _ => .pure rfl
theorem State.agcProc_keepsShell : KeepsShell Prod.fst s (s.agcProc c x) := .after fun _ => .pure rfl
theorem State.deessProc_keepsShell : KeepsShell Prod.fst s (s.deessProc c x) := .after fun _ => .pure rfl
theorem State.compProc_keepsShell : KeepsShell Prod.fst s (s.compProc c x) := .after fun _ => .pure rfl
theorem State.fetProc_keepsShell : KeepsShell Prod.fst s (s.fetProc c x) := .after fun _ => .pure rfl
theorem State.satProc_keepsShell : KeepsShell Prod.fst s (s.satProc c x) := .after fun _ => .pure rfl
theorem State.pitchProc_keepsShell : KeepsShell Prod.fst s (s.pitchProc c x) := .after fun _ => .pure rfl
theorem State.dlyProc_keepsShell : KeepsShell Prod.fst s (s.dlyProc c x) := .after fun _ => .pure rfl
theorem State.rvsProc_keepsShell : KeepsShell Prod.fst s (s.rvsProc c x) := .after fun _ => .pure rfl
theorem State.fdnProc_keepsShell : KeepsShell Prod.fst s (s.fdnProc c x) := .after fun _ => .pure rfl
theorem State.limProc_keepsShell : KeepsShell Prod.fst s (s.limProc c x) := .after fun _ => .pure rfl
theorem State.bqProc_keepsShell : KeepsShell Prod.fst s (s.bqProc c b x) := .after fun _ => .pure rfl
theorem State.svfProc_keepsShell : KeepsShell Prod.fst s (s.svfProc c b x) := .after fun _ => .pure rfl
theorem State.osUp_keepsShell : KeepsShell Prod.fst s (s.osUp c x) := .after fun _ => .pure rfl
theorem State.xnAcc_keepsShell : KeepsShell id s (s.xnAcc c x) := .after fun _ => .pure rfl
theorem State.xnAnalyze_keepsShell : KeepsShell id s s.xnAnalyze := .after fun _ => .pure rfl
theorem State.fetThoff_keepsShell : KeepsShell id s (s.fetThoff v) := .after fun _ => .pure rfl
theorem State.satDscale_keepsShell : KeepsShell id s (s.satDscale v) := .after fun _ => .pure rfl

theorem State.agcExt_keepsShell (mode : Bool) : KeepsShell id s (s.agcExt mode v) := .after fun _ => .pure rfl

theorem State.osDown_keepsShell (u0 u1 u2 u3 : F32) : KeepsShell Prod.fst s (s.osDown c u0 u1 u2 u3) :=
  .after fun _ => .pure rfl

theorem State.widProc_keepsShell (l r : F32) : KeepsShell Prod.fst s (s.widProc c l r) := .after fun _ => .pure rfl

theorem State.bqGoff_keepsShell : KeepsShell id s (s.bqGoff b v) := .after fun _ => .after fun _ => .pure rfl
theorem State.svfGoff_keepsShell : KeepsShell id s (s.svfGoff b v) := .after fun _ => .after fun _ => .pure rfl
theorem State.bqRst_keepsShell : KeepsShell id s (s.bqRst v) := .after fun _ => .pure rfl
theorem State.svfRst_keepsShell : KeepsShell id s (s.svfRst v) := .after fun _ => .pure rfl

/-! ### PIPE -/

/-- `PIPE.RST` runs the RST of fourteen units, behind two checks (rule R386). -/
theorem State.pipeRst_keepsShell (os : Bool) : KeepsShell id s (s.pipeRst os v) :=
  .after fun _ => .after fun _ =>
  .after fun _ => .after fun _ => .after fun _ => .after fun _ => .after fun _ => .after fun _ => .after fun _ =>
  .after fun _ => .after fun _ => .after fun _ => .after fun _ => .after fun _ => .after fun _ => .after fun _ =>
  .pure rfl

theorem State.pipeCfg_keepsShell (P : PipeP) : KeepsShell id s (s.pipeCfg P) := .after fun _ => .pure rfl

theorem State.eqBand_keepsShell : KeepsShell Prod.fst s (State.eqBand b s c x) :=
  .stage (.ite (s.svfProc_keepsShell c b x) (s.bqProc_keepsShell c b x))

theorem eqBands_keepsShell (bs : List Nat) : KeepsShell Prod.fst s (eqBands bs s c x) := by
  induction bs generalizing s x with
  | nil => exact .pure rfl
  | cons b bs ih => exact (s.eqBand_keepsShell c b x).bind fun ⟨t, y⟩ => ih t y

theorem State.eqProc_keepsShell : KeepsShell Prod.fst s (s.eqProc c x) := eqBands_keepsShell s c x _

theorem State.compressorProc_keepsShell : KeepsShell Prod.fst s (s.compressorProc c x) :=
  .ite (s.fetProc_keepsShell c x) (s.compProc_keepsShell c x)

theorem State.reverbProc_keepsShell : KeepsShell Prod.fst s (s.reverbProc c x) :=
  .ite (s.fdnProc_keepsShell c x) (s.rvsProc_keepsShell c x)

/-- Stages 1 to 7, in order (rule R389). -/
theorem State.bracket_keepsShell : KeepsShell Prod.fst s (s.bracket c x) :=
  .bind (.stage (s.gateProc_keepsShell c x)) fun ⟨s, x⟩ =>
  .bind (.stage (s.agcProc_keepsShell c x)) fun ⟨s, x⟩ =>
  .bind (.stage (s.pitchProc_keepsShell c x)) fun ⟨s, x⟩ =>
  .bind (.stage (s.deessProc_keepsShell c x)) fun ⟨s, x⟩ =>
  .bind (.stage (s.eqProc_keepsShell c x)) fun ⟨s, x⟩ =>
  .bind (.stage (s.compressorProc_keepsShell c x)) fun ⟨s, x⟩ =>
  .stage (s.satProc_keepsShell c x)

theorem State.oversampled_keepsShell : KeepsShell Prod.fst s (s.oversampled c x) :=
  .bind (s.osUp_keepsShell c x) fun ⟨s, u0, u1, u2, u3⟩ =>
  .bind (s.bracket_keepsShell c u0) fun ⟨s, u0⟩ =>
  .bind (s.bracket_keepsShell c u1) fun ⟨s, u1⟩ =>
  .bind (s.bracket_keepsShell c u2) fun ⟨s, u2⟩ =>
  .bind (s.bracket_keepsShell c u3) fun ⟨s, u3⟩ =>
  s.osDown_keepsShell c u0 u1 u2 u3

/-- What follows the bracket of a channel: delay, then reverb (rule R389). -/
theorem State.dlyThenReverb_keepsShell : KeepsShell Prod.fst s (do
    let (s, x) ← stage (s.pipe.L.enabled .dly) State.dlyProc s c x
    stage (s.pipe.L.enabled .reverb) State.reverbProc s c x) :=
  .bind (.stage (s.dlyProc_keepsShell c x)) fun ⟨s, x⟩ => .stage (s.reverbProc_keepsShell c x)

theorem State.channelProc_keepsShell : KeepsShell Prod.fst s (s.channelProc c x) :=
  .ite ((s.oversampled_keepsShell c x).bind fun ⟨s, x⟩ => s.dlyThenReverb_keepsShell c x)
    ((s.bracket_keepsShell c x).bind fun ⟨s, x⟩ => s.dlyThenReverb_keepsShell c x)

theorem State.xnTap_keepsShell : KeepsShell Prod.fst s (s.xnTap c x) :=
  (s.xnAcc_keepsShell c x).bind fun _ => .pure rfl

theorem widPairs_keepsShell (xs : List F32) : KeepsShell Prod.fst s (widPairs s c xs) := by
  induction s, c, xs using widPairs.induct with
  | case1 s c l r xs ih =>
    exact (s.widProc_keepsShell c l r).bind fun ⟨t, l', r'⟩ => (ih t).bind fun _ => .pure rfl
  | case2 s c => exact .pure rfl
  | case3 s c x => exact .pure rfl

/-- A frame: supervisor tap, channels, widener, limiter (rule R389). -/
theorem State.pipeFrame_keepsShell (xs : List F32) : KeepsShell Prod.fst s (s.pipeFrame xs) :=
  .after fun _ => .after fun _ =>
  .bind (.stageAll (.forChannels State.xnTap_keepsShell)) fun ⟨s, _⟩ =>
  .bind (.forChannels (s := s) State.channelProc_keepsShell) fun ⟨s, xs⟩ =>
  .bind (.stageAll (widPairs_keepsShell s 0 xs)) fun _ =>
  .stageAll (.forChannels State.limProc_keepsShell)

theorem State.goffBand_keepsShell (w : Word) : KeepsShell id s (s.goffBand w v) :=
  .ite (.pure rfl) ((s.bqGoff_keepsShell w.toNat v).bind fun t => t.svfGoff_keepsShell w.toNat v)

theorem State.driveConsumers_keepsShell (mode : Bool) (alGainDb thOffDb scale cutDb : F32) :
    KeepsShell id s (s.driveConsumers mode alGainDb thOffDb scale cutDb) :=
  .bind (s.agcExt_keepsShell alGainDb mode) fun s =>
  .bind (s.fetThoff_keepsShell thOffDb) fun s =>
  .bind (s.satDscale_keepsShell scale) fun s =>
  s.goffBand_keepsShell cutDb s.pipe.L.eqMudBand

theorem State.xnDistribute_keepsShell : KeepsShell id s s.xnDistribute := s.driveConsumers_keepsShell _ _ _ _ _

theorem State.xnNeutral_keepsShell : KeepsShell id s s.xnNeutral := s.driveConsumers_keepsShell _ _ _ _ _

theorem State.releaseBand_keepsShell (old : Word) : KeepsShell id s (s.releaseBand old) :=
  .ite (.pure rfl) (s.goffBand_keepsShell F32.zero old)

theorem State.beginConsumers_keepsShell (was : Bool) : KeepsShell id s (s.beginConsumers was) :=
  .ite s.xnDistribute_keepsShell (.ite s.xnNeutral_keepsShell (.pure rfl))

/-- `PIPE.BEGIN`: latching changes no shell either (rule R393). -/
theorem State.pipeBegin_keepsShell : KeepsShell id s s.pipeBegin :=
  .after fun _ => .after fun _ => .after fun _ =>
  .bind (s.latch.releaseBand_keepsShell s.pipe.L.eqMudBand) fun t =>
  .bind (t.beginConsumers_keepsShell (s.pipe.L.enabled .xn)) fun _ => .pure rfl

/-- `PIPE.END`: the block is analysed while the supervisor is on (rule R394). -/
theorem State.pipeEnd_keepsShell : KeepsShell id s s.pipeEnd :=
  .after fun _ => .after fun _ =>
  .ite ((s.xnAnalyze_keepsShell.bind fun t => t.xnDistribute_keepsShell).bind fun _ => .pure rfl)
    (.bind (π := id) (.pure rfl) fun _ => .pure rfl)

end Operations

/-! ### WR -/

/-- A write through a unit's register file goes through `put`. -/
theorem unitAccess_write_shell {U : Type} {s t : State} {life : Life} {snap : Bool} {views : List (View U)} {u : U}
    {put : U → State} {c r : Nat} {w : Word}
    (h : (unitAccess life snap views u put c r).write w = some t) (hput : ∀ v, (put v).shell = s.shell) :
    t.shell = s.shell := by
  simp only [unitAccess] at h
  split at h
  · obtain ⟨v, -, rfl⟩ := Option.map_eq_some_iff.1 h
    exact hput v
  · cases h

/-- A register of PIPE whose write leaves `STATUS` alone. -/
def View.KeepsStatus (view : View Pipe) : Prop := ∀ u c w v, view.set u c w = some v → v.status = u.status

theorem View.KeepsStatus.raw {get : Pipe → Word} {set : Pipe → Word → Pipe}
    (h : ∀ u w, (set u w).status = u.status) : (View.raw get set).KeepsStatus := by
  rintro u c w _ ⟨⟩
  exact h u w

theorem View.KeepsStatus.coded {α : Type} {get : Pipe → Word} {of : Word → Option α} {set : Pipe → α → Pipe}
    (h : ∀ u a, (set u a).status = u.status) : (View.coded get of set).KeepsStatus := by
  intro u c w v hv
  obtain ⟨a, -, rfl⟩ := Option.map_eq_some_iff.1 hv
  exact h u a

theorem View.KeepsStatus.fixed {get : Pipe → Word} : (View.fixed get).KeepsStatus := nofun

/-- Of PIPE's registers only the last, `STATUS` at 14, writes `PIPE.STATUS` (rules R66, R69). -/
theorem pipeViews_keepsStatus {p : Params} {r : Nat} {view : View Pipe} (hr : r ≠ 14)
    (h : (pipeViews p)[r]? = some view) : view.KeepsStatus := by
  have others : ∀ view ∈ (pipeViews p).take 14, view.KeepsStatus := by
    simp only [pipeViews, List.take_succ_cons, List.take_zero, List.forall_mem_cons]
    exact ⟨.coded fun _ _ => rfl, .coded fun _ _ => rfl, .coded fun _ _ => rfl, .coded fun _ _ => rfl,
      .coded fun _ _ => rfl, .raw fun _ _ => rfl, .raw fun _ _ => rfl, .raw fun _ _ => rfl, .raw fun _ _ => rfl,
      .raw fun _ _ => rfl, .fixed, .fixed, .fixed, .fixed, nofun⟩
  have hlt : r < 15 := (List.getElem?_eq_some_iff.1 h).1
  exact others view (List.mem_of_getElem? (i := r) (by rw [List.getElem?_take_of_lt (by omega), h]))

/-- WR through PIPE's register file, at any register but `STATUS`. -/
theorem pipeAccess_write_shell {s t : State} {c i r : Nat} {w : Word} (hr : r ≠ 14)
    (h : (s.access .pipe c i r).write w = some t) : t.shell = s.shell := by
  simp only [State.access, unitAccess] at h
  split at h
  · rename_i view hview
    obtain ⟨v, hv, rfl⟩ := Option.map_eq_some_iff.1 h
    exact State.shell_eq_iff.2 ⟨rfl, rfl, rfl, pipeViews_keepsStatus hr hview _ _ _ _ hv⟩
  · cases h

/-- WR of any register but `PIPE.STATUS` keeps the shell (rule R401). -/
theorem State.writeReg_keepsShell {s : State} {u : UnitId} {c i r : Nat} (w : Word) (h : ¬(u = .pipe ∧ r = 14)) :
    KeepsShell id s (s.writeReg u c i r w) := by
  intro t ht
  obtain ⟨_, -, -, -, -, hw⟩ := State.writeReg_eq_ok.1 ht
  cases u
  case pipe => exact pipeAccess_write_shell (fun hr => h ⟨rfl, hr⟩) hw
  all_goals exact unitAccess_write_shell hw fun _ => rfl

/-- `PIPE.STATUS` has one address, with CH and IDX 0 (rules R69, R118). -/
theorem addressOk_status {p : Params} {c i : Nat} (h : addressOk p .pipe c i 14 = true) : c = 0 ∧ i = 0 := by
  have hc : regClass .pipe 14 = some .status := rfl
  simpa [addressOk, hc, instances, copyExists, and_comm] using h

/-! ### Every command -/

/-- The outcome `o` of a command at `s` is the end of a computation that keeps the shell (rules R21, R425). -/
def Concludes (s : State) (o : Host.Outcome State Fault Refusal) : Prop :=
  ∃ x : Except Raised (State × List Word), o = conclude s x ∧ KeepsShell Prod.fst s x

/-- A command that checks nothing: it completes at a state with the shell of `s`. -/
theorem Concludes.next {s t : State} {results : List Word} (h : t.shell = s.shell) :
    Concludes s (.next (t.complete results)) := ⟨.ok (t, results), rfl, .pure h⟩

/-- WR: `PIPE.STATUS` aside, at whatever address. -/
theorem execWr_concludes {u : UnitId} {ch : BitVec 4} {idx reg : BitVec 8} {v : Word} (s : State)
    (h : Instr.wr u ch idx reg v ≠ .wr .pipe 0 0 14 v) : Concludes s (exec (.wr u ch idx reg v) s) := by
  by_cases hs : u = .pipe ∧ reg.toNat = 14
  · obtain ⟨rfl, hr⟩ := hs
    have hbad : addressOk s.params .pipe ch.toNat idx.toNat 14 ≠ true := by
      intro ha
      obtain ⟨hc, hi⟩ := addressOk_status ha
      exact h (by rw [BitVec.eq_of_toNat_eq (y := 0) hc, BitVec.eq_of_toNat_eq (y := 0) hi,
        BitVec.eq_of_toNat_eq (y := 14) hr])
    refine ⟨_, rfl, .bind (π := id) ?_ fun _ => .pure rfl⟩
    intro t ht
    obtain ⟨_, -, ha, -⟩ := State.writeReg_eq_ok.1 ht
    exact absurd (hr ▸ ha) hbad
  · exact ⟨_, rfl, (State.writeReg_keepsShell v hs).bind fun _ => .pure rfl⟩

/-- Every command but WR of `PIPE.STATUS`, by the shape of its meaning: a new value of one unit, with or without a check
before it, or an operation of the sections above. -/
theorem exec_concludes (i : Instr) (s : State) (h : ∀ v, i ≠ .wr .pipe 0 0 14 v) : Concludes s (exec i s) := by
  cases i with
  | envRst | gateRst | agcRst | deessRst | compRst | fetRst | satRst | pitchRst | dlyRst | rvsRst | fdnRst | widRst
  | limRst | xnRst | bqCfg | svfCfg | pipeDeinit | rd => exact ⟨_, rfl, .after fun _ => .pure rfl⟩
  | envCfg | gateCfg | agcCfg | deessCfg | compCfg | fetCfg | satCfg | pitchCfg | dlyCfg | rvsCfg | fdnCfg | widCfg
  | limCfg | xnCfg | osRst => exact Concludes.next rfl
  | envProc | pipeSave | pipeRestore => exact ⟨_, rfl, .after fun _ => .after fun _ => .pure rfl⟩
  | gateProc ch x => exact ⟨_, rfl, .after fun _ => (s.gateProc_keepsShell _ x).bind fun _ => .pure rfl⟩
  | agcProc ch x => exact ⟨_, rfl, .after fun _ => (s.agcProc_keepsShell _ x).bind fun _ => .pure rfl⟩
  | deessProc ch x => exact ⟨_, rfl, .after fun _ => (s.deessProc_keepsShell _ x).bind fun _ => .pure rfl⟩
  | compProc ch x => exact ⟨_, rfl, .after fun _ => (s.compProc_keepsShell _ x).bind fun _ => .pure rfl⟩
  | fetProc ch x => exact ⟨_, rfl, .after fun _ => (s.fetProc_keepsShell _ x).bind fun _ => .pure rfl⟩
  | satProc ch x => exact ⟨_, rfl, .after fun _ => (s.satProc_keepsShell _ x).bind fun _ => .pure rfl⟩
  | pitchProc ch x => exact ⟨_, rfl, .after fun _ => (s.pitchProc_keepsShell _ x).bind fun _ => .pure rfl⟩
  | dlyProc ch x => exact ⟨_, rfl, .after fun _ => (s.dlyProc_keepsShell _ x).bind fun _ => .pure rfl⟩
  | rvsProc ch x => exact ⟨_, rfl, .after fun _ => (s.rvsProc_keepsShell _ x).bind fun _ => .pure rfl⟩
  | fdnProc ch x => exact ⟨_, rfl, .after fun _ => (s.fdnProc_keepsShell _ x).bind fun _ => .pure rfl⟩
  | limProc ch x => exact ⟨_, rfl, .after fun _ => (s.limProc_keepsShell _ x).bind fun _ => .pure rfl⟩
  | bqProc ch b x => exact ⟨_, rfl, .after fun _ => (s.bqProc_keepsShell _ _ x).bind fun _ => .pure rfl⟩
  | svfProc ch b x => exact ⟨_, rfl, .after fun _ => (s.svfProc_keepsShell _ _ x).bind fun _ => .pure rfl⟩
  | widProc ch l r => exact ⟨_, rfl, .after fun _ => (s.widProc_keepsShell _ l r).bind fun _ => .pure rfl⟩
  | osUp ch x => exact ⟨_, rfl, .after fun _ => (s.osUp_keepsShell _ x).bind fun _ => .pure rfl⟩
  | osDown ch u0 u1 u2 u3 =>
    exact ⟨_, rfl, .after fun _ => (s.osDown_keepsShell _ u0 u1 u2 u3).bind fun _ => .pure rfl⟩
  | xnAcc ch x => exact ⟨_, rfl, .after fun _ => (s.xnAcc_keepsShell _ x).bind fun _ => .pure rfl⟩
  | bqRst fs => exact ⟨_, rfl, (s.bqRst_keepsShell fs).bind fun _ => .pure rfl⟩
  | svfRst fs => exact ⟨_, rfl, (s.svfRst_keepsShell fs).bind fun _ => .pure rfl⟩
  | bqGoff b v => exact ⟨_, rfl, (s.bqGoff_keepsShell _ v).bind fun _ => .pure rfl⟩
  | svfGoff b v => exact ⟨_, rfl, (s.svfGoff_keepsShell _ v).bind fun _ => .pure rfl⟩
  | agcExt m v => exact ⟨_, rfl, (s.agcExt_keepsShell v m).bind fun _ => .pure rfl⟩
  | fetThoff v => exact ⟨_, rfl, (s.fetThoff_keepsShell v).bind fun _ => .pure rfl⟩
  | satDscale v => exact ⟨_, rfl, (s.satDscale_keepsShell v).bind fun _ => .pure rfl⟩
  | xnAnalyze => exact ⟨_, rfl, s.xnAnalyze_keepsShell.bind fun _ => .pure rfl⟩
  | pipeRst os fs => exact ⟨_, rfl, (s.pipeRst_keepsShell fs os).bind fun _ => .pure rfl⟩
  | pipeCfg en sel k e m => exact ⟨_, rfl, (s.pipeCfg_keepsShell ⟨en, sel, k, e, m⟩).bind fun _ => .pure rfl⟩
  | pipeFrame xs => exact ⟨_, rfl, .after fun _ => s.pipeFrame_keepsShell xs⟩
  | pipeBegin => exact ⟨_, rfl, s.pipeBegin_keepsShell.bind fun _ => .pure rfl⟩
  | pipeEnd => exact ⟨_, rfl, s.pipeEnd_keepsShell.bind fun _ => .pure rfl⟩
  | wr u ch idx reg v => exact execWr_concludes s (h v)

/-- WR of `PIPE.STATUS` completes in every state and clears the bits written (rule R69). -/
theorem execWr_status (s : State) (v : Word) : exec (.wr .pipe 0 0 14 v) s =
    .next (State.complete { s with pipe := { s.pipe with status := s.pipe.status &&& ~~~v } } []) := rfl

/-- Settles O7, from the shell that every command but WR of `PIPE.STATUS` keeps. -/
theorem everyCommandCompletesOrRaises : Obligations.EveryCommandCompletesOrRaises := by
  intro i s
  by_cases hw : ∃ v, i = .wr .pipe 0 0 14 v
  · obtain ⟨v, rfl⟩ := hw
    exact .inl ⟨_, _, execWr_status s v, rfl, rfl, rfl, .inr ⟨v, rfl, rfl⟩⟩
  · obtain ⟨x, hx, hkeep⟩ := exec_concludes i s fun v hv => hw ⟨v, hv⟩
    cases x with
    | ok outcome =>
      obtain ⟨hparams, hport, hfree, hstatus⟩ := State.shell_eq_iff.1 (hkeep outcome rfl)
      exact .inl ⟨outcome.1, outcome.2, hx, hparams, hport, hfree, .inl hstatus⟩
    | error r => exact .inr ⟨r, by rw [hx, conclude_error, State.raise, State.respond, List.append_nil]; rfl⟩

end Sys2Proof.Machine
end

section
/-! The decoder reads back what the encoder writes (rules R110, R111, R116), and the step runs what it decodes (rules
R23, R93). -/

namespace Sys2Proof.Machine

/-! ### Decoding an encoded command -/

/-- The tables of rule R114 read back the codes. -/
@[simp] theorem bqTypeTable_code (t : BqType) : bqTypeTable[t.code.toNat]? = some t := by cases t <;> rfl
@[simp] theorem svfTypeTable_code (t : SvfType) : svfTypeTable[t.code.toNat]? = some t := by cases t <;> rfl
@[simp] theorem satTypeTable_code (t : SatType) : satTypeTable[t.code.toNat]? = some t := by cases t <;> rfl
@[simp] theorem flagTable_code (b : Bool) : flagTable[(flagCode b).toNat]? = some b := by cases b <;> rfl

/-- A row with a MODE code and no other field. -/
theorem modeCode_eq {α : Type} {codes : List α} {mode : BitVec 8} {a : α} (h : codes[mode.toNat]? = some a)
    (f : α → Instr) : modeCode codes 0 0 mode f = .ok (f a) := by
  simp [modeCode, h]

/-- A row with IDX free and a MODE code. -/
theorem idxModeCode_eq {α : Type} {codes : List α} {mode : BitVec 8} {a : α} (h : codes[mode.toNat]? = some a)
    (f : α → Instr) : idxModeCode codes 0 mode f = .ok (f a) := by
  simp [idxModeCode, h]

/-- The command word of a row makes the row's command. -/
theorem decodeWord_commandWord (u : UnitId) (o : Op) (ch : BitVec 4) (idx mode : BitVec 8) (ops : List Word) :
    decodeWord (commandWord u o ch idx mode) ops = build u o ch idx mode ops := by
  simp [decodeWord]

/-- A whole transaction is decoded with the operand words that the decoder counts. -/
theorem decode_of_operandCount {p : Params} {w : Word} {ops rest : List Word} {i : Instr}
    (hcount : operandCount p.nch w (ops ++ rest) = some ops.length) (hword : decodeWord w ops = .ok i) :
    decode p (w :: ops ++ rest) = .ok (i, rest) := by
  simp [decode, hcount, hword]

/-- The command word and the operand words that the encoder writes make the command. -/
def ReadsBack (i : Instr) : Prop :=
  ∃ u o ch idx mode ops, encode i = commandWord u o ch idx mode :: ops ∧ build u o ch idx mode ops = .ok i

theorem readsBack (i : Instr) : ReadsBack i := by
  cases i with
  | bqCfg idx t f q g => exact ⟨_, _, _, _, _, _, rfl, idxModeCode_eq (bqTypeTable_code t) (.bqCfg idx · f q g)⟩
  | svfCfg idx t f q g => exact ⟨_, _, _, _, _, _, rfl, idxModeCode_eq (svfTypeTable_code t) (.svfCfg idx · f q g)⟩
  | agcExt m g => exact ⟨_, _, _, _, _, _, rfl, modeCode_eq (flagTable_code m) (.agcExt · g)⟩
  | fetCfg m a b c d => exact ⟨_, _, _, _, _, _, rfl, modeCode_eq (flagTable_code m) (.fetCfg · a b c d)⟩
  | satCfg t d => exact ⟨_, _, _, _, _, _, rfl, modeCode_eq (satTypeTable_code t) (.satCfg · d)⟩
  | widCfg m a b => exact ⟨_, _, _, _, _, _, rfl, modeCode_eq (flagTable_code m) (.widCfg · a b)⟩
  | pipeRst os fs => exact ⟨_, _, _, _, _, _, rfl, modeCode_eq (flagTable_code os) (.pipeRst · fs)⟩
  | _ => exact ⟨_, _, _, _, _, _, rfl, rfl⟩

/-- The decoder counts the operand words that the encoder writes, for every command of the build. -/
theorem operandCount_encode (i : Instr) : Laws.OperandCount.Statement i := by
  cases i with
  | pipeFrame xs => exact Laws.OperandCount.pipeFrame xs
  | pipeRestore n ws => exact Laws.OperandCount.pipeRestore n ws
  | rd u ch idx reg => exact Laws.OperandCount.rd u ch idx reg
  | wr u ch idx reg v => exact Laws.OperandCount.wr u ch idx reg v
  | pipeBegin | pipeEnd | pipeDeinit | pipeSave => exact fun _ _ _ => ⟨_, _, rfl, operandCount_pipeAux ..⟩
  | _ => exact fun _ _ _ => ⟨_, _, rfl, operandCount_row _ _ _ _ _ _ _ (by decide)⟩

/-- Decoding what the encoder writes gives the command back, with the words behind it. -/
theorem decode_encode {p : Params} {i : Instr} (h : i.wellFormed p = true) (rest : List Word) :
    decode p (encode i ++ rest) = .ok (i, rest) := by
  obtain ⟨u, o, ch, idx, mode, ops, hencode, hbuild⟩ := readsBack i
  obtain ⟨w, ops', hencode', hcount⟩ := operandCount_encode i p rest h
  obtain ⟨rfl, rfl⟩ := List.cons.inj (hencode.symm.trans hencode')
  rw [hencode]
  exact decode_of_operandCount hcount ((decodeWord_commandWord ..).trans hbuild)

/-! ### The step -/

/-- Where the words on the port begin with a command, the step runs it with its words taken off. -/
theorem step_of_decode {s : State} {i : Instr} {rest : List Word} (h : decode s.params s.port.rx = .ok (i, rest)) :
    step s = exec i (s.withRx rest) := by
  simp [step, State.fetch, h]

/-- Without a whole transaction on the port the step waits (log entry 4). -/
theorem step_waits {s : State} (h : decode s.params s.port.rx = .error .noCommand ∨
    decode s.params s.port.rx = .error .incomplete) : step s = .next s := by
  rcases h with h | h <;> simp only [step, State.fetch, h]

/-- The operand words of a transaction whose count is not known yet, or not reached, are still to come. -/
theorem decode_incomplete {p : Params} {w : Word} {rest : List Word}
    (h : ∀ n, operandCount p.nch w rest = some n → rest.length < n) :
    decode p (w :: rest) = .error .incomplete := by
  cases hcount : operandCount p.nch w rest with
  | none => simp only [decode, hcount]
  | some n => simp only [decode, hcount, h n hcount, if_true]

/-- Settles O4: the step decodes, and the decoder reads back what the encoder writes. -/
theorem stepRunsTheDecodedCommand : Obligations.StepRunsTheDecodedCommand := by
  intro s
  refine ⟨fun i rest h => step_of_decode h, fun i rest hwf hrx => ?_, fun hrx => ?_, fun w rest n hrx hn hlt => ?_,
    fun w rest hrx hn => ?_⟩
  · exact step_of_decode (hrx ▸ decode_encode hwf rest)
  · exact step_waits (.inl (by rw [hrx]; rfl))
  · refine step_waits (.inr (hrx ▸ decode_incomplete fun m hm => ?_))
    rw [hn, Option.some.injEq] at hm
    exact hm ▸ hlt
  · refine step_waits (.inr (hrx ▸ decode_incomplete fun m hm => ?_))
    rw [hn] at hm
    cases hm

end Sys2Proof.Machine
end

section
/-! Rounding to the nearest binary32 value, ties to even (rule R13): the count of units that a magnitude stands for, the
integer rounding `roundDiv`, and the magnitude that `roundMag` chooses. -/

namespace Sys2Proof.Machine

/-! ### The units of a magnitude -/

/-- The count of `2^-149` that the magnitude bits `m` of a finite value stand for. -/
def magUnits (m : Nat) : Nat :=
  if m < 0x800000 then m else (m % 0x800000 + 0x800000) * 2 ^ (m / 0x800000 - 1)

theorem units_eq_magUnits (a : F32) : F32.units a = magUnits (F32.mag a) := rfl

/-- A significand of 24 bits or one more, at the quantum `2^k`: the magnitude is encoded as the exponent field `k` plus
the significand, and a carry into the next binade comes out right. -/
theorem magUnits_encode {k r : Nat} (hr : r ≤ 0x1000000) (hk : k = 0 ∨ 0x800000 ≤ r) :
    magUnits (k * 0x800000 + r) = r * 2 ^ k := by
  unfold magUnits
  rcases Nat.lt_or_ge r 0x800000 with hlow | hhigh
  · obtain rfl : k = 0 := by omega
    simp [hlow]
  · rw [if_neg (by omega)]
    rcases Nat.lt_or_ge r 0x1000000 with hlt | hge
    · rw [show (k * 0x800000 + r) % 0x800000 + 0x800000 = r by omega,
        show (k * 0x800000 + r) / 0x800000 - 1 = k by omega]
    · obtain rfl : r = 0x1000000 := by omega
      rw [show (k * 0x800000 + 0x1000000) % 0x800000 + 0x800000 = 0x800000 by omega,
        show (k * 0x800000 + 0x1000000) / 0x800000 - 1 = k + 1 by omega, Nat.pow_succ]
      omega

/-- Every magnitude is a quantum and a significand of 24 bits, with the hidden bit unless the quantum is 1. -/
theorem exists_encode (m : Nat) : ∃ k r, m = k * 0x800000 + r ∧ r < 0x1000000 ∧ (k = 0 ∨ 0x800000 ≤ r) := by
  rcases Nat.lt_or_ge m 0x800000 with h | h
  · exact ⟨0, m, by omega, by omega, .inl rfl⟩
  · exact ⟨m / 0x800000 - 1, m % 0x800000 + 0x800000, by omega, by omega, .inr (by omega)⟩

theorem magUnits_succ_lt (m : Nat) : magUnits m < magUnits (m + 1) := by
  obtain ⟨k, r, rfl, hr, hk⟩ := exists_encode m
  rw [Nat.add_assoc, magUnits_encode (by omega) hk, magUnits_encode (by omega) (by omega)]
  exact Nat.mul_lt_mul_of_pos_right (Nat.lt_succ_self r) (Nat.two_pow_pos k)

/-- Magnitudes are ordered as what they stand for. -/
theorem magUnits_strictMono : StrictMono magUnits := strictMono_nat_of_lt_succ magUnits_succ_lt

@[simp] theorem magUnits_zero : magUnits 0 = 0 := rfl

theorem magUnits_eq_zero_iff {m : Nat} : magUnits m = 0 ↔ m = 0 :=
  magUnits_strictMono.injective.eq_iff' magUnits_zero

/-! ### The integer rounding -/

/-- `r` is within half of `n / d`, and even where it is off by half. -/
structure IsRounded (n d r : Nat) : Prop where
  upper : 2 * n ≤ (2 * r + 1) * d
  lower : 2 * r * d ≤ 2 * n + d
  upper_tie : 2 * n = (2 * r + 1) * d → r % 2 = 0
  lower_tie : 2 * r * d = 2 * n + d → r % 2 = 0

theorem roundDiv_isRounded (n : Nat) {d : Nat} (hd : 0 < d) : IsRounded n d (roundDiv n d) := by
  have hn : d * (n / d) + n % d = n := Nat.div_add_mod n d
  have hlt : n % d < d := Nat.mod_lt n hd
  unfold roundDiv
  generalize n / d = q at *
  generalize n % d = m at *
  have hq : (2 * q + 1) * d = 2 * (d * q) + d ∧ 2 * q * d = 2 * (d * q) := by constructor <;> ring
  have hq' : (2 * (q + 1) + 1) * d = 2 * (d * q) + 3 * d ∧ 2 * (q + 1) * d = 2 * (d * q) + 2 * d := by
    constructor <;> ring
  split
  · constructor <;> omega
  · split
    · constructor <;> omega
    · rcases Nat.mod_two_eq_zero_or_one q with heven | hodd
      · rw [heven, Nat.add_zero]
        constructor <;> omega
      · rw [hodd]
        constructor <;> omega

namespace IsRounded

variable {n d r : Nat}

/-- No integer is nearer, and one as near leaves the rounded one even. -/
theorem nearest (h : IsRounded n d r) (hd : 0 < d) (j : Nat) :
    ((r * d : Int) - n).natAbs ≤ ((j * d : Int) - n).natAbs ∧
    (((r * d : Int) - n).natAbs = ((j * d : Int) - n).natAbs → j ≠ r → r % 2 = 0) := by
  obtain ⟨upper, lower, upper_tie, lower_tie⟩ := h
  have hr : (2 * r + 1) * d = 2 * (r * d) + d ∧ 2 * r * d = 2 * (r * d) := by constructor <;> ring
  rcases Nat.lt_trichotomy j r with hlt | rfl | hgt
  · have : j * d + d ≤ r * d := (Nat.succ_mul j d) ▸ Nat.mul_le_mul_right d hlt
    omega
  · exact ⟨Nat.le_refl _, fun _ hne => absurd rfl hne⟩
  · have : r * d + d ≤ j * d := (Nat.succ_mul r d) ▸ Nat.mul_le_mul_right d hgt
    omega

theorem le_of_lt (h : IsRounded n d r) {a : Nat} (hn : n < a * d) : r ≤ a := by
  by_contra hlt
  have := Nat.mul_le_mul_right d (show 2 * a + 2 ≤ 2 * r by omega)
  have := h.lower
  grind

theorem le_of_le (h : IsRounded n d r) (hd : 0 < d) {a : Nat} (hn : a * d ≤ n) : a ≤ r := by
  by_contra hlt
  have := Nat.mul_le_mul_right d (show 2 * r + 2 ≤ 2 * a by omega)
  have := h.upper
  grind

/-- From half a step above the odd `a` on, the rounded integer is above `a`. -/
theorem odd_lt_iff (h : IsRounded n d r) (hd : 0 < d) {a : Nat} (ha : a % 2 = 1) :
    a < r ↔ (2 * a + 1) * d ≤ 2 * n := by
  constructor
  · intro hlt
    have := Nat.mul_le_mul_right d (show 2 * a + 2 ≤ 2 * r by omega)
    have := h.lower
    grind
  · intro hle
    by_contra hge
    have hra : r = a := by
      have := Nat.le_of_mul_le_mul_right (hle.trans h.upper) hd
      omega
    subst hra
    have := h.upper_tie (Nat.le_antisymm h.upper hle)
    omega

end IsRounded

/-! ### The magnitude that is chosen -/

/-- What `roundMag` computes: the quantum `2^k`, so that the significand has 24 bits or `k` is 0, and the significand
rounded to `r`. -/
structure IsEncoded (n d k r : Nat) : Prop where
  rounded : IsRounded n (d * 2 ^ k) r
  le_top : r ≤ 0x1000000
  hidden_bit : k = 0 ∨ 0x800000 ≤ r
  quantum_le : k = 0 ∨ 0x800000 * (d * 2 ^ k) ≤ n
  lt_top : n < 0x1000000 * (d * 2 ^ k)

theorem roundMag_isEncoded (n : Nat) {d : Nat} (hd : 0 < d) :
    ∃ k r, IsEncoded n d k r ∧ roundMag n d = min 0x7F800000 (k * 0x800000 + r) := by
  obtain ⟨k, hk⟩ : ∃ k, k = Nat.log2 (n / d) - 23 := ⟨_, rfl⟩
  have hq : 0 < d * 2 ^ k := Nat.mul_pos hd (Nat.two_pow_pos k)
  have hlt : n < 0x1000000 * (d * 2 ^ k) := by
    have hbits : n / d < 2 ^ (24 + k) :=
      Nat.lt_of_lt_of_le Nat.lt_log2_self (Nat.pow_le_pow_right (by decide) (by omega))
    rw [Nat.div_lt_iff_lt_mul hd, Nat.pow_add] at hbits
    grind
  have hle : k = 0 ∨ 0x800000 * (d * 2 ^ k) ≤ n := by
    refine or_iff_not_imp_left.2 fun hk0 => ?_
    have hbits : 2 ^ (23 + k) ≤ n / d := by
      rw [show 23 + k = Nat.log2 (n / d) by omega]
      exact Nat.log2_self_le fun h0 => hk0 (by simp [hk, h0])
    rw [Nat.le_div_iff_mul_le hd, Nat.pow_add] at hbits
    grind
  have hr := roundDiv_isRounded n hq
  refine ⟨k, roundDiv n (d * 2 ^ k), ⟨hr, hr.le_of_lt hlt, ?_, hle, hlt⟩, by rw [roundMag, ← hk]⟩
  exact hle.imp_right fun h => hr.le_of_le hq h

namespace IsEncoded

variable {n d k r : Nat}

theorem magUnits_eq (h : IsEncoded n d k r) : magUnits (k * 0x800000 + r) = r * 2 ^ k :=
  magUnits_encode h.le_top h.hidden_bit

/-- No magnitude is nearer, and one as near leaves the chosen one even: a magnitude with a finer quantum lies below the
binade of `n / d`, any other is a multiple of the quantum. -/
theorem nearest (h : IsEncoded n d k r) (hd : 0 < d) (m : Nat) :
    ((magUnits (k * 0x800000 + r) * d : Int) - n).natAbs ≤ ((magUnits m * d : Int) - n).natAbs ∧
    (((magUnits (k * 0x800000 + r) * d : Int) - n).natAbs = ((magUnits m * d : Int) - n).natAbs →
      m ≠ k * 0x800000 + r → (k * 0x800000 + r) % 2 = 0) := by
  have hq : 0 < d * 2 ^ k := Nat.mul_pos hd (Nat.two_pow_pos k)
  have hchosen : (magUnits (k * 0x800000 + r) * d : Int) = r * (d * 2 ^ k : Nat) := by
    rw [h.magUnits_eq]
    push_cast
    ring
  obtain ⟨k', r', rfl, hr', hk'⟩ := exists_encode m
  rcases Nat.lt_or_ge k' k with hfiner | hcoarser
  · have hbinade : magUnits (k' * 0x800000 + r') * d < 0x800000 * (d * 2 ^ k) := by
      rw [magUnits_encode (by omega) hk']
      have hpow : 2 ^ (k' + 1) ≤ 2 ^ k := Nat.pow_le_pow_right (by decide) hfiner
      rw [Nat.pow_succ] at hpow
      calc r' * 2 ^ k' * d < 0x1000000 * 2 ^ k' * d :=
            Nat.mul_lt_mul_of_pos_right (Nat.mul_lt_mul_of_pos_right hr' (Nat.two_pow_pos k')) hd
        _ = 0x800000 * (d * (2 ^ k' * 2)) := by ring
        _ ≤ 0x800000 * (d * 2 ^ k) := Nat.mul_le_mul_left _ (Nat.mul_le_mul_left d hpow)
    have hle : 0x800000 * (d * 2 ^ k) ≤ n := h.quantum_le.resolve_left (by omega)
    have hnear := (h.rounded.nearest hq 0x800000).1
    rw [hchosen]
    omega
  · have hm : (magUnits (k' * 0x800000 + r') * d : Int) = (r' * 2 ^ (k' - k) : Nat) * (d * 2 ^ k : Nat) := by
      rw [magUnits_encode (by omega) hk', ← Nat.sub_add_cancel hcoarser, Nat.pow_add, Nat.add_sub_cancel]
      push_cast
      ring
    obtain ⟨hnear, htie⟩ := h.rounded.nearest hq (r' * 2 ^ (k' - k))
    rw [hchosen, hm]
    refine ⟨hnear, fun heq hne => ?_⟩
    have heven : r % 2 = 0 := htie heq fun hj => hne (magUnits_strictMono.injective ?_)
    · omega
    · rw [h.magUnits_eq, magUnits_encode (by omega) hk', ← hj, Nat.mul_assoc, ← Nat.pow_add,
        Nat.sub_add_cancel hcoarser]

/-- The encoding reaches the infinity exactly from half a unit above the largest finite value on. -/
theorem inf_le_iff (h : IsEncoded n d k r) (hd : 0 < d) :
    0x7F800000 ≤ k * 0x800000 + r ↔ (2 ^ 25 - 1) * 2 ^ 252 * d ≤ n := by
  rcases Nat.lt_trichotomy k 253 with hlow | rfl | hhigh
  · have hpow : 2 ^ k ≤ 2 ^ 252 := Nat.pow_le_pow_right (by decide) (by omega)
    have hmul := Nat.mul_le_mul_left d hpow
    have := h.lt_top
    have := h.le_top
    omega
  · have hodd := h.rounded.odd_lt_iff (Nat.mul_pos hd (Nat.two_pow_pos 253)) (a := 0xFFFFFF) rfl
    have := h.le_top
    omega
  · have hpow : 2 ^ 254 ≤ 2 ^ k := Nat.pow_le_pow_right (by decide) hhigh
    have hmul := Nat.mul_le_mul_left d hpow
    have := h.quantum_le
    have := h.hidden_bit
    omega

end IsEncoded

theorem roundMag_le (n d : Nat) : roundMag n d ≤ 0x7F800000 := Nat.min_le_left _ _

theorem roundMag_eq_inf_iff (n : Nat) {d : Nat} (hd : 0 < d) :
    roundMag n d = 0x7F800000 ↔ (2 ^ 25 - 1) * 2 ^ 252 * d ≤ n := by
  obtain ⟨k, r, h, hmag⟩ := roundMag_isEncoded n hd
  rw [hmag, ← h.inf_le_iff hd]
  omega

/-- A finite magnitude that `roundMag` chooses is the nearest, and even at a tie. -/
theorem roundMag_nearest {n d : Nat} (hd : 0 < d) (hfin : roundMag n d < 0x7F800000) (m : Nat) :
    ((magUnits (roundMag n d) * d : Int) - n).natAbs ≤ ((magUnits m * d : Int) - n).natAbs ∧
    (((magUnits (roundMag n d) * d : Int) - n).natAbs = ((magUnits m * d : Int) - n).natAbs →
      m ≠ roundMag n d → roundMag n d % 2 = 0) := by
  obtain ⟨k, r, h, hmag⟩ := roundMag_isEncoded n hd
  rw [show roundMag n d = k * 0x800000 + r by omega]
  exact h.nearest hd m

/-- A count of units that a finite magnitude stands for is not rounded. -/
theorem roundMag_magUnits {m : Nat} (hm : m < 0x7F800000) : roundMag (magUnits m) 1 = m := by
  have hlargest : magUnits 0x7F7FFFFF = 0xFFFFFF * 2 ^ 253 := 
    magUnits_encode (k := 253) (r := 0xFFFFFF) (by decide) (by decide)
  have hle : magUnits m ≤ magUnits 0x7F7FFFFF := magUnits_strictMono.monotone (by omega)
  have hfin : roundMag (magUnits m) 1 ≠ 0x7F800000 := by
    rw [Ne, roundMag_eq_inf_iff _ Nat.one_pos]
    omega
  have hnear := (roundMag_nearest Nat.one_pos ((roundMag_le _ _).lt_of_ne hfin) m).1
  exact magUnits_strictMono.injective (by omega)

/-- A count of units with at most 24 significant bits is that of a magnitude. -/
theorem exists_magUnits_eq {j : Nat} (hj : j ≤ 0x1000000) (e : Nat) :
    ∃ m, m ≤ 0x800000 * (e + 2) ∧ magUnits m = j * 2 ^ e := by
  induction e generalizing j with
  | zero => exact ⟨j, by omega, by simpa using magUnits_encode (k := 0) hj (.inl rfl)⟩
  | succ e ih =>
    rcases Nat.lt_or_ge j 0x800000 with hlow | hhigh
    · obtain ⟨m, hm, hunits⟩ := ih (j := 2 * j) (by omega)
      exact ⟨m, by omega, by rw [hunits, Nat.pow_succ]; ring⟩
    · exact ⟨(e + 1) * 0x800000 + j, by omega, magUnits_encode hj (.inr hhigh)⟩

/-! ### Words -/

@[simp] theorem F32.ofParts_sign_mag (a : F32) : F32.ofParts (F32.sign a) (F32.mag a) = a := by
  apply BitVec.eq_of_toNat_eq
  have := a.isLt
  simp only [F32.ofParts, F32.sign, F32.mag, BitVec.msb_eq_decide, BitVec.toNat_ofNat, decide_eq_true_eq]
  split <;> omega

theorem F32.mag_lt (a : F32) : F32.mag a < 0x80000000 := Nat.mod_lt _ (by decide)

/-- Sign and magnitude are the whole word. -/
theorem F32.eq_iff {a b : F32} : a = b ↔ F32.sign a = F32.sign b ∧ F32.mag a = F32.mag b := by
  refine ⟨fun h => h ▸ ⟨rfl, rfl⟩, fun ⟨hs, hm⟩ => ?_⟩
  rw [← F32.ofParts_sign_mag a, hs, hm, F32.ofParts_sign_mag]

theorem F32.isFinite_iff {a : F32} : F32.isFinite a = true ↔ F32.mag a < 0x7F800000 := decide_eq_true_iff
theorem F32.isInf_iff {a : F32} : F32.isInf a = true ↔ F32.mag a = 0x7F800000 := decide_eq_true_iff
theorem F32.isNaN_iff {a : F32} : F32.isNaN a = true ↔ 0x7F800000 < F32.mag a := decide_eq_true_iff
theorem F32.isZero_iff {a : F32} : F32.isZero a = true ↔ F32.mag a = 0 := decide_eq_true_iff

theorem F32.isNaN_of_isFinite {a : F32} (h : F32.isFinite a = true) : F32.isNaN a = false := by
  rw [F32.isFinite_iff] at h
  exact decide_eq_false (by omega)

theorem F32.isInf_of_isFinite {a : F32} (h : F32.isFinite a = true) : F32.isInf a = false := by
  rw [F32.isFinite_iff] at h
  exact decide_eq_false (by omega)

theorem F32.units_eq_zero_iff {a : F32} : F32.units a = 0 ↔ F32.isZero a = true :=
  magUnits_eq_zero_iff.trans F32.isZero_iff.symm

/-! ### Rounding to a word -/

/-- The word with the magnitude that `roundMag` chooses is the nearest one with its sign (rule R13). -/
theorem nearestTo_roundMag (neg : Bool) (n : Nat) {d : Nat} (hd : 0 < d) :
    nearestTo neg n d (F32.ofParts neg (roundMag n d)) := by
  have hle := roundMag_le n d
  have hmag : F32.mag (F32.ofParts neg (roundMag n d)) = roundMag n d := F32.mag_ofParts (by omega)
  refine ⟨F32.sign_ofParts (by omega), decide_eq_false (by omega), ?_, fun hfin v _ => ?_⟩
  · rw [F32.isInf_iff, hmag, roundMag_eq_inf_iff n hd]
  · rw [units_eq_magUnits, units_eq_magUnits, hmag]
    refine roundMag_nearest hd (hle.lt_of_ne fun hinf => ?_) (F32.mag v)
    rw [← hmag, ← F32.isInf_iff, hfin] at hinf
    cases hinf

/-- The four operations end here: rounded once, a subnormal result flushed where FTZ is set (rule R13). -/
theorem roundsTo_roundPack (ftz neg : Bool) (n : Nat) {d : Nat} (hd : 0 < d) :
    roundsTo ftz neg n d (roundPack ftz neg n d) := by
  have hmag : F32.mag (F32.ofParts neg (roundMag n d)) = roundMag n d :=
    F32.mag_ofParts ((roundMag_le n d).trans_lt (by decide))
  refine ⟨_, nearestTo_roundMag neg n hd, ?_⟩
  simp only [roundPack, hmag, Bool.and_eq_true, decide_eq_true_eq]

/-- The NaN that an operation makes is quiet. -/
theorem quietNaN_nan (p : Ctx) (op : Nat) (a b : F32) : quietNaN (p.nan op a b) := by
  unfold Ctx.nan F32.quiet
  generalize (Config.nanBits p.seed op a b) = x
  have := x.isLt
  refine ⟨F32.isNaN_iff.2 ?_, ?_⟩
  · simp only [F32.mag, BitVec.toNat_ofNat]
    omega
  · simp only [BitVec.getLsbD_ofNat, Nat.testBit_eq_decide_div_mod_eq, Bool.and_eq_true, decide_eq_true_eq]
    omega

/-! ### The four operations on finite operands -/

section Finite
variable (p : Ctx) {a b : F32} (ha : F32.isFinite a = true) (hb : F32.isFinite b = true)
include ha hb

theorem add_of_finite : p.add a b = p.addFinite a b := by
  simp [Ctx.add, F32.isNaN_of_isFinite, F32.isInf_of_isFinite, ha, hb]

theorem add_finite_zero (h : F32.signedUnits a + F32.signedUnits b = 0) :
    p.add a b = if F32.sign a && F32.sign b then F32.negZero else F32.zero := by
  rw [add_of_finite p ha hb, Ctx.addFinite, if_pos h]
  cases F32.sign a && F32.sign b <;> rfl

theorem add_finite_rounds (h : F32.signedUnits a + F32.signedUnits b ≠ 0) :
    roundsTo p.ftz (decide (F32.signedUnits a + F32.signedUnits b < 0))
      (F32.signedUnits a + F32.signedUnits b).natAbs 1 (p.add a b) := by
  rw [add_of_finite p ha hb, Ctx.addFinite, if_neg h]
  exact roundsTo_roundPack _ _ _ Nat.one_pos

theorem mul_finite_rounds :
    roundsTo p.ftz (F32.sign a != F32.sign b) (F32.units a * F32.units b) (2 ^ 149) (p.mul a b) := by
  have hmul : p.mul a b = roundPack p.ftz (F32.sign a != F32.sign b) (F32.units a * F32.units b) (2 ^ 149) := by
    simp [Ctx.mul, F32.isNaN_of_isFinite, F32.isInf_of_isFinite, ha, hb]
  exact hmul ▸ roundsTo_roundPack _ _ _ (Nat.two_pow_pos 149)

theorem div_finite_rounds (hz : F32.isZero b = false) :
    roundsTo p.ftz (F32.sign a != F32.sign b) (F32.units a * 2 ^ 149) (F32.units b) (p.div a b) := by
  have hdiv : p.div a b = roundPack p.ftz (F32.sign a != F32.sign b) (F32.units a * 2 ^ 149) (F32.units b) := by
    simp [Ctx.div, F32.isNaN_of_isFinite, F32.isInf_of_isFinite, ha, hb, hz]
  have hpos : F32.units b ≠ 0 := fun h0 => by simp [F32.units_eq_zero_iff.1 h0] at hz
  exact hdiv ▸ roundsTo_roundPack _ _ _ (Nat.pos_of_ne_zero hpos)

theorem div_finite_by_zero (hz : F32.isZero b = true) : p.div a b =
    if F32.isZero a then p.nan 2 a b else F32.ofParts (F32.sign a != F32.sign b) 0x7F800000 := by
  simp [Ctx.div, F32.isNaN_of_isFinite, F32.isInf_of_isFinite, ha, hb, hz]

end Finite

/-! ### The four operations on NaNs and infinities -/

/-- A NaN operand makes a quiet NaN (rule R13). -/
theorem ops_of_isNaN (p : Ctx) {a b : F32} (h : F32.isNaN a = true ∨ F32.isNaN b = true) :
    quietNaN (p.add a b) ∧ quietNaN (p.mul a b) ∧ quietNaN (p.div a b) := by
  have hor : (F32.isNaN a || F32.isNaN b) = true := Bool.or_eq_true_iff.2 h
  simp only [Ctx.add, Ctx.mul, Ctx.div, hor, if_true]
  exact ⟨quietNaN_nan .., quietNaN_nan .., quietNaN_nan ..⟩

theorem F32.isZero_of_isInf {a : F32} (h : F32.isInf a = true) : F32.isZero a = false := by
  rw [F32.isInf_iff] at h
  exact decide_eq_false (by omega)

section Infinite
variable (p : Ctx) {a b : F32} (ha : F32.isNaN a = false) (hb : F32.isNaN b = false)
include ha hb

theorem add_inf_left (h : F32.isInf a = true) :
    p.add a b = if F32.isInf b && (F32.sign a != F32.sign b) then p.nan 0 a b else a := by
  simp [Ctx.add, ha, hb, h]

theorem add_inf_right (h : F32.isInf a = false) (h' : F32.isInf b = true) : p.add a b = b := by
  simp [Ctx.add, ha, hb, h, h']

theorem mul_inf (h : F32.isInf a = true ∨ F32.isInf b = true) : p.mul a b =
    if F32.isZero a || F32.isZero b then p.nan 1 a b else F32.ofParts (F32.sign a != F32.sign b) 0x7F800000 := by
  simp [Ctx.mul, ha, hb, h]

theorem div_inf_left (h : F32.isInf a = true) : p.div a b =
    if F32.isInf b then p.nan 2 a b else F32.ofParts (F32.sign a != F32.sign b) 0x7F800000 := by
  simp [Ctx.div, ha, hb, h]

theorem div_inf_right (h : F32.isInf a = false) (h' : F32.isInf b = true) :
    p.div a b = F32.ofParts (F32.sign a != F32.sign b) 0 := by
  simp [Ctx.div, ha, hb, h, h']

end Infinite

/-- Every case with an infinity and no NaN (rule R13): two infinities, one on the left, one on the right, and the
products of one. -/
theorem ops_of_isInf (p : Ctx) {a b : F32} (ha : F32.isNaN a = false) (hb : F32.isNaN b = false) :
    let neg := F32.sign a != F32.sign b
    let inf := F32.ofParts neg 0x7F800000
    (F32.isInf a = true → F32.isInf b = true →
      (neg = true → quietNaN (p.add a b)) ∧ (neg = false → p.add a b = a) ∧
      p.mul a b = inf ∧ quietNaN (p.div a b)) ∧
    (F32.isInf a = true → F32.isInf b = false → p.add a b = a ∧ p.div a b = inf) ∧
    (F32.isInf a = false → F32.isInf b = true → p.add a b = b ∧ p.div a b = F32.ofParts neg 0) ∧
    (F32.isInf a != F32.isInf b →
      (F32.isZero a = false → F32.isZero b = false → p.mul a b = inf) ∧
      (F32.isZero a = true ∨ F32.isZero b = true → quietNaN (p.mul a b))) := by
  intro neg inf
  refine ⟨fun hia hib => ⟨fun hneg => ?_, fun hneg => ?_, ?_, ?_⟩, fun hia hib => ⟨?_, ?_⟩,
    fun hia hib => ⟨?_, ?_⟩, fun hne => ?_⟩
  · rw [add_inf_left p ha hb hia, hib, Bool.true_and, if_pos hneg]
    exact quietNaN_nan ..
  · rw [add_inf_left p ha hb hia, hib, Bool.true_and, if_neg (Bool.eq_false_iff.1 hneg)]
  · rw [mul_inf p ha hb (.inl hia), F32.isZero_of_isInf hia, F32.isZero_of_isInf hib]
    rfl
  · rw [div_inf_left p ha hb hia, if_pos hib]
    exact quietNaN_nan ..
  · rw [add_inf_left p ha hb hia, hib]
    rfl
  · rw [div_inf_left p ha hb hia, hib]
    rfl
  · exact add_inf_right p ha hb hia hib
  · exact div_inf_right p ha hb hia hib
  · have hone : F32.isInf a = true ∨ F32.isInf b = true := by
      cases hia : F32.isInf a <;> simp_all
    rw [mul_inf p ha hb hone]
    refine ⟨fun hza hzb => ?_, fun hz => ?_⟩
    · rw [hza, hzb]
      rfl
    · rw [if_pos (Bool.or_eq_true_iff.2 hz)]
      exact quietNaN_nan ..

/-! ### Signs and comparisons -/

theorem F32.abs_eq (a : F32) : F32.abs a = F32.ofParts false (F32.mag a) := by
  apply BitVec.eq_of_toNat_eq
  have hlt := F32.mag_lt a
  have hand : (F32.abs a).toNat = a.toNat &&& (2 ^ 31 - 1) := BitVec.toNat_and ..
  rw [hand, Nat.and_two_pow_sub_one_eq_mod, F32.ofParts, BitVec.toNat_ofNat]
  simp only [F32.mag, Bool.false_eq_true, if_false]
  omega

theorem F32.neg_eq (a : F32) : F32.neg a = F32.ofParts (!F32.sign a) (F32.mag a) := by
  apply BitVec.eq_of_toNat_eq
  have hlt := a.isLt
  have hxor : (F32.neg a).toNat = a.toNat ^^^ 2 ^ 31 := BitVec.toNat_xor ..
  have hdiv : (a.toNat ^^^ 2 ^ 31) / 2 ^ 31 = a.toNat / 2 ^ 31 ^^^ 1 := Nat.xor_div_two_pow
  have hmod : (a.toNat ^^^ 2 ^ 31) % 2 ^ 31 = a.toNat % 2 ^ 31 := Nat.xor_mod_two_pow.trans (Nat.xor_zero _)
  rw [hxor, F32.ofParts, BitVec.toNat_ofNat]
  simp only [F32.mag, F32.sign, BitVec.msb_eq_decide]
  rcases Nat.lt_or_ge a.toNat (2 ^ 31) with h | h
  · rw [Nat.div_eq_of_lt h, Nat.zero_xor] at hdiv
    rw [decide_eq_false (Nat.not_le.2 h)]
    simp only [Bool.not_false, if_true]
    omega
  · rw [show a.toNat / 2 ^ 31 = 1 by omega, Nat.xor_self] at hdiv
    rw [decide_eq_true h]
    simp only [Bool.not_true, Bool.false_eq_true, if_false]
    omega

theorem F32.key_posInf : F32.key F32.posInf = 0x7F800000 := rfl
theorem F32.key_negInf : F32.key F32.negInf = -0x7F800000 := rfl

/-- The order of the comparisons is that of the values, sign by sign: magnitudes are ordered as their units, and
only 0 has none. -/
theorem F32.key_lt_iff (a b : F32) : F32.key a < F32.key b ↔ F32.signedUnits a < F32.signedUnits b := by
  have hlt := magUnits_strictMono.lt_iff_lt (a := F32.mag a) (b := F32.mag b)
  have hgt := magUnits_strictMono.lt_iff_lt (a := F32.mag b) (b := F32.mag a)
  have ha := magUnits_strictMono.lt_iff_lt (a := 0) (b := F32.mag a)
  have hb := magUnits_strictMono.lt_iff_lt (a := 0) (b := F32.mag b)
  rw [magUnits_zero] at ha hb
  unfold F32.key F32.signedUnits
  rw [units_eq_magUnits, units_eq_magUnits]
  cases F32.sign a <;> cases F32.sign b <;> simp <;> omega

theorem F32.lt_of_isNaN {a b : F32} (h : F32.isNaN a = true ∨ F32.isNaN b = true) :
    F32.lt a b = false ∧ F32.le a b = false := by
  rcases h with h | h <;> simp [F32.lt, F32.le, h]

/-- Away from NaNs the comparisons compare keys. -/
theorem F32.lt_iff_key {a b : F32} (ha : F32.isNaN a = false) (hb : F32.isNaN b = false) :
    (F32.lt a b = true ↔ F32.key a < F32.key b) ∧ (F32.le a b = true ↔ F32.key a ≤ F32.key b) := by
  simp [F32.lt, F32.le, ha, hb]

theorem F32.lt_finite_iff {a b : F32} (ha : F32.isFinite a = true) (hb : F32.isFinite b = true) :
    (F32.lt a b = true ↔ F32.signedUnits a < F32.signedUnits b) ∧
    (F32.le a b = true ↔ F32.signedUnits a ≤ F32.signedUnits b) := by
  obtain ⟨hlt, hle⟩ := F32.lt_iff_key (F32.isNaN_of_isFinite ha) (F32.isNaN_of_isFinite hb)
  exact ⟨hlt.trans (F32.key_lt_iff a b), by rw [hle, ← Int.not_lt, F32.key_lt_iff, Int.not_lt]⟩

theorem F32.eq_posInf_iff {a : F32} : a = F32.posInf ↔ F32.sign a = false ∧ F32.mag a = 0x7F800000 := F32.eq_iff
theorem F32.eq_negInf_iff {a : F32} : a = F32.negInf ↔ F32.sign a = true ∧ F32.mag a = 0x7F800000 := F32.eq_iff

/-- The keys of the infinities bound those of the numbers, and are theirs alone. -/
theorem F32.key_bounds {a : F32} (ha : F32.isNaN a = false) :
    -0x7F800000 ≤ F32.key a ∧ F32.key a ≤ 0x7F800000 ∧
    (a = F32.posInf ↔ F32.key a = 0x7F800000) ∧ (a = F32.negInf ↔ F32.key a = -0x7F800000) := by
  have hmag : ¬ 0x7F800000 < F32.mag a := decide_eq_false_iff_not.1 ha
  rw [F32.eq_posInf_iff, F32.eq_negInf_iff, F32.key]
  cases F32.sign a <;> simp <;> omega

theorem F32.compare_inf {a : F32} (ha : F32.isNaN a = false) :
    (F32.lt a F32.posInf = true ↔ a ≠ F32.posInf) ∧ F32.le a F32.posInf = true ∧
    (F32.lt F32.negInf a = true ↔ a ≠ F32.negInf) ∧ F32.le F32.negInf a = true ∧
    F32.lt F32.posInf a = false ∧ (F32.le F32.posInf a = true ↔ a = F32.posInf) ∧
    F32.lt a F32.negInf = false ∧ (F32.le a F32.negInf = true ↔ a = F32.negInf) := by
  have hpos : F32.isNaN F32.posInf = false := rfl
  have hneg : F32.isNaN F32.negInf = false := rfl
  obtain ⟨hlow, hhigh, hposInf, hnegInf⟩ := F32.key_bounds ha
  rw [← Bool.not_eq_true (F32.lt F32.posInf a), ← Bool.not_eq_true (F32.lt a F32.negInf),
    (F32.lt_iff_key ha hpos).1, (F32.lt_iff_key ha hpos).2, (F32.lt_iff_key hneg ha).1, (F32.lt_iff_key hneg ha).2,
    (F32.lt_iff_key hpos ha).1, (F32.lt_iff_key hpos ha).2, (F32.lt_iff_key ha hneg).1, (F32.lt_iff_key ha hneg).2,
    Ne, Ne, hposInf, hnegInf, F32.key_posInf, F32.key_negInf]
  omega

/-! ### Floor and the conversions -/

/-- The integral part of a finite value is a value: below `2^24` every integer is one, and from there on every value
is an integer. -/
theorem exists_floor_mag {a : F32} (ha : F32.isFinite a = true) : ∃ m, m < 0x7F800000 ∧
    magUnits m = (F32.signedUnits a / 2 ^ 149).natAbs * 2 ^ 149 := by
  have hmag := F32.isFinite_iff.1 ha
  have hsigned : (F32.signedUnits a).natAbs = magUnits (F32.mag a) := by
    rw [F32.signedUnits, units_eq_magUnits]
    split <;> omega
  obtain ⟨k, r, hkr, hr, hk⟩ := exists_encode (F32.mag a)
  have hunits : magUnits (F32.mag a) = r * 2 ^ k := hkr ▸ magUnits_encode (by omega) hk
  rcases Nat.lt_or_ge k 149 with hfraction | hintegral
  · have hpow : 2 ^ k ≤ 2 ^ 148 := Nat.pow_le_pow_right (by decide) (by omega)
    have hsmall : r * 2 ^ k ≤ 0x1000000 * 2 ^ 148 := Nat.mul_le_mul (by omega) hpow
    obtain ⟨m, hm, hfloor⟩ := exists_magUnits_eq (j := (F32.signedUnits a / 2 ^ 149).natAbs) (by omega) 149
    exact ⟨m, by omega, hfloor⟩
  · refine ⟨F32.mag a, hmag, ?_⟩
    have hmultiple : magUnits (F32.mag a) = 2 ^ 149 * (r * 2 ^ (k - 149)) := by
      rw [hunits, Nat.mul_left_comm, ← Nat.pow_add, Nat.add_sub_cancel' hintegral]
    omega

theorem F32.floor_of_zero {a : F32} (h : F32.isZero a = true) : F32.floor a = a := by simp [F32.floor, h]

theorem F32.floor_of_not_finite {a : F32} (h : F32.isFinite a = false) : F32.floor a = a := by simp [F32.floor, h]

theorem F32.signedUnits_lt_zero_iff {a : F32} (h : F32.isZero a = false) :
    F32.signedUnits a < 0 ↔ F32.sign a = true := by
  have hpos : F32.units a ≠ 0 := fun h0 => by simp [F32.units_eq_zero_iff.1 h0] at h
  rw [F32.signedUnits]
  split
  · exact iff_of_true (by omega) ‹_›
  · exact iff_of_false (by omega) ‹_›

/-- `floor` of a finite value is exact and keeps the sign (rule R14, log entry 11). -/
theorem F32.floor_finite {a : F32} (ha : F32.isFinite a = true) :
    F32.isFinite (F32.floor a) = true ∧ F32.signedUnits (F32.floor a) = F32.signedUnits a / 2 ^ 149 * 2 ^ 149 ∧
    F32.sign (F32.floor a) = F32.sign a := by
  cases hz : F32.isZero a with
  | true =>
    have hzero : F32.signedUnits a = 0 := by simp [F32.signedUnits, F32.units_eq_zero_iff.2 hz]
    rw [F32.floor_of_zero hz, hzero]
    exact ⟨ha, rfl, rfl⟩
  | false =>
    obtain ⟨m, hm, hfloor⟩ := exists_floor_mag ha
    have hsign := F32.signedUnits_lt_zero_iff hz
    have hword : F32.floor a = F32.ofParts (F32.sign a) m := by
      rw [F32.floor, ha, hz, ← hfloor, roundMag_magUnits hm]
      simp [hsign]
    have hm' : F32.mag (F32.floor a) = m := hword ▸ F32.mag_ofParts (by omega)
    have hs' : F32.sign (F32.floor a) = F32.sign a := hword ▸ F32.sign_ofParts (by omega)
    refine ⟨F32.isFinite_iff.2 (hm' ▸ hm), ?_, hs'⟩
    rw [F32.signedUnits, hs', units_eq_magUnits, hm', hfloor]
    rcases Bool.eq_false_or_eq_true (F32.sign a) with h | h
    · have hneg := hsign.2 h
      rw [if_pos h]
      omega
    · have hneg : ¬ F32.signedUnits a < 0 := fun hlt => by simp [hsign.1 hlt] at h
      rw [if_neg (by simp [h])]
      omega

theorem F32.toU32_finite {a : F32} (ha : F32.isFinite a = true) :
    (F32.toU32 a).toNat = if F32.sign a then 0 else min 0xFFFFFFFF (F32.units a / 2 ^ 149) := by
  simp only [F32.toU32, F32.isNaN_of_isFinite ha, F32.isInf_of_isFinite ha, Bool.false_or]
  cases F32.sign a with
  | true => rfl
  | false =>
    simp only [Bool.false_eq_true, if_false]
    split
    · rw [Nat.min_eq_left (by omega)]
      rfl
    · rw [BitVec.toNat_ofNat]
      omega

theorem F32.toU32_of_not_finite {a : F32} (ha : F32.isFinite a = false) :
    F32.toU32 a = if a = F32.posInf then 0xFFFFFFFF else 0 := by
  have hmag : ¬ F32.mag a < 0x7F800000 := decide_eq_false_iff_not.1 ha
  unfold F32.toU32
  split
  · rename_i h
    rw [if_neg]
    rintro rfl
    cases h
  · rename_i h
    obtain ⟨hnan, hsign⟩ : F32.isNaN a = false ∧ F32.sign a = false := by simpa using h
    have hinf : F32.mag a = 0x7F800000 := by
      have := decide_eq_false_iff_not.1 hnan
      omega
    rw [if_pos (F32.isInf_iff.2 hinf), if_pos (F32.eq_posInf_iff.2 ⟨hsign, hinf⟩)]

/-- Settles O59, clause by clause: the rounding, finite operands, NaNs and infinities, signs and comparisons, `floor`
and the conversions. -/
theorem roundingIsToTheNearest : Obligations.RoundingIsToTheNearest := by
  refine ⟨fun n d m hd hfin hm => ?_, fun p a b ha hb => ?_, fun p a b => ?_, fun a b lo hi => ?_, fun a => ?_,
    fun n _ => nearestTo_roundMag false _ Nat.one_pos⟩
  · simp only [units_eq_magUnits, F32.mag_ofParts (hfin.trans (by decide)), F32.mag_ofParts (hm.trans (by decide))]
    exact roundMag_nearest hd hfin m
  · refine ⟨add_finite_zero p ha hb, add_finite_rounds p ha hb, mul_finite_rounds p ha hb, div_finite_rounds p ha hb,
      fun hzb hza => ?_, fun hzb hza => ?_⟩
    · rw [div_finite_by_zero p ha hb hzb, hza]
      rfl
    · rw [div_finite_by_zero p ha hb hzb, hza]
      exact quietNaN_nan ..
  · exact ⟨rfl, ops_of_isNaN p, ops_of_isInf p⟩
  · exact ⟨F32.lt_of_isNaN, F32.lt_finite_iff, F32.compare_inf, F32.abs_eq a, F32.neg_eq a, rfl, rfl, rfl⟩
  · refine ⟨fun ha => ?_, fun ha => ⟨F32.floor_of_not_finite ha, F32.toU32_of_not_finite ha⟩⟩
    obtain ⟨hfinite, hvalue, hsign⟩ := F32.floor_finite ha
    exact ⟨hfinite, hvalue, hsign, F32.toU32_finite ha⟩

end Sys2Proof.Machine
end

section
/-! The whole next state of RST, CFG, GOFF and DEINIT (rules R35, R36, R81, R171 to R186, R396): the coefficient step,
then each operation of a unit, as one record update; the commands are those operations at the state. -/

namespace Sys2Proof.Machine

/-! ### Commands that put a new value of one unit into the state -/

/-- A command that computes one unit and succeeds completes with that unit in its place. -/
theorem conclude_put {U : Type} {s : State} {x : Except Raised U} {v : U} (put : U → State) (h : x = .ok v) :
    conclude s (x >>= fun u => pure (put u, [])) = .next ((put v).complete []) := by
  rw [h]; rfl

/-- A command whose first part fails has no other effect (rule R425). -/
theorem conclude_bind_error {α : Type} {s : State} {x : Except Raised α} {r : Raised}
    {f : α → Except Raised (State × List Word)} (h : x = .error r) : conclude s (x >>= f) = .next (s.raise r) := by
  rw [h]; rfl

/-- The rates that RST accepts (rule R422). -/
theorem rateOk_iff {p : Params} {fs : F32} :
    rateOk p fs = true ↔ F32.lt F32.zero fs = true ∧ F32.le fs p.fsMax = true := Bool.and_eq_true_iff

theorem rateOk_eq_false_iff {p : Params} {fs : F32} :
    rateOk p fs = false ↔ ¬(F32.lt F32.zero fs = true ∧ F32.le fs p.fsMax = true) :=
  Bool.eq_false_iff.trans (not_congr rateOk_iff)

/-! ### The coefficient step (rules R35, R36) -/

/-- After a CFG the coefficients are recomputed where the unit is active (rule R36). -/
theorem Life.ready_configure (l : Life) : l.configure.ready = l.active := Bool.and_true _

theorem Env.derive_eq (p : Ctx) (u : Env) : u.derive p =
    { u with C := if u.life.ready then envCoeffs p u.life.fsEff u.P else u.C } := by
  unfold Env.derive; cases u.life.ready <;> rfl

theorem Bq.derive_eq (p : Ctx) (u : Bq) : u.derive p =
    { u with
      C := if u.life.ready then bqCoeffs p u.P.type u.P.freq u.P.q (p.add u.P.gainDb u.gainOffDb) u.life.fsEff
        else u.C } := by
  unfold Bq.derive; cases u.life.ready <;> rfl

theorem Svf.derive_eq (p : Ctx) (u : Svf) : u.derive p =
    { u with
      C := if u.life.ready then svfCoeffs p u.P.freq u.P.q (p.add u.P.gainDb u.gainOffDb) u.life.fsEff else u.C } := by
  unfold Svf.derive; cases u.life.ready <;> rfl

theorem Gate.derive_eq (p : Ctx) (u : Gate) : u.derive p =
    { u with C := if u.life.ready then gateCoeffs p u.life.fsEff u.P else u.C } := by
  unfold Gate.derive; cases u.life.ready <;> rfl

theorem Agc.derive_eq (p : Ctx) (u : Agc) : u.derive p =
    { u with C := if u.life.ready then agcCoeffs p u.life.fsEff u.P else u.C } := by
  unfold Agc.derive; cases u.life.ready <;> rfl

theorem Deess.derive_eq (p : Ctx) (u : Deess) : u.derive p =
    { u with C := if u.life.ready then deessCoeffs p u.life.fsEff u.P else u.C } := by
  unfold Deess.derive; cases u.life.ready <;> rfl

theorem Comp.derive_eq (p : Ctx) (u : Comp) : u.derive p =
    { u with C := if u.life.ready then compCoeffs p u.life.fsEff u.P else u.C } := by
  unfold Comp.derive; cases u.life.ready <;> rfl

theorem Fet.derive_eq (p : Ctx) (u : Fet) : u.derive p =
    { u with C := if u.life.ready then fetCoeffs p u.life.fsEff u.P else u.C } := by
  unfold Fet.derive; cases u.life.ready <;> rfl

theorem Pitch.derive_eq (p : Ctx) (u : Pitch) : u.derive p =
    { u with C := if u.life.ready then pitchCoeffs p u.life.fsEff u.P else u.C } := by
  unfold Pitch.derive; cases u.life.ready <;> rfl

theorem Dly.derive_eq (p : Ctx) (u : Dly) : u.derive p =
    { u with target := if u.life.ready then dlyTarget p u.life.fsEff u.P.timeMs else u.target } := by
  unfold Dly.derive; cases u.life.ready <;> rfl

theorem Fdn.derive_eq (p : Ctx) (u : Fdn) : u.derive p =
    { u with C := if u.life.ready then fdnCoeffs p u.life.fsEff u.P else u.C } := by
  unfold Fdn.derive; cases u.life.ready <;> rfl

theorem Wid.derive_eq (p : Ctx) (u : Wid) : u.derive p =
    { u with k := if u.life.ready then lowpassCoef p u.life.fsEff u.P.bassFreq else u.k } := by
  unfold Wid.derive; cases u.life.ready <;> rfl

theorem Lim.derive_eq (p : Ctx) (u : Lim) : u.derive p =
    { u with C := if u.life.ready then limCoeffs p u.life.fsEff u.P else u.C } := by
  unfold Lim.derive; cases u.life.ready <;> rfl

theorem Xn.derive_eq (p : Ctx) (u : Xn) : u.derive p =
    { u with klp := if u.life.ready then xnCoeffs p u.life.fsEff u.P else u.klp } := by
  unfold Xn.derive; cases u.life.ready <;> rfl

/-! ### RST of a unit at an accepted rate (rule R35) -/

section
variable {p : Ctx} {fs : F32}

theorem Env.rst_eq (h : rateOk p.toParams fs = true) (u : Env) : u.rst p fs = .ok { u with
    life := ⟨true, u.life.configured, fs⟩, envelope := perChannel p F32.zero
    C := if u.life.configured then envCoeffs p fs u.P else u.C } := by
  rw [Env.rst, h]
  exact congrArg Except.ok (Env.derive_eq ..)

theorem Gate.rst_eq (h : rateOk p.toParams fs = true) (u : Gate) : u.rst p fs = .ok { u with
    life := ⟨true, u.life.configured, fs⟩, ch := perChannel p GateS.fresh
    C := if u.life.configured then gateCoeffs p fs u.P else u.C } := by
  rw [Gate.rst, h]
  exact congrArg Except.ok (Gate.derive_eq ..)

theorem Agc.rst_eq (h : rateOk p.toParams fs = true) (u : Agc) : u.rst p fs = .ok { u with
    life := ⟨true, u.life.configured, fs⟩, K := ⟨false, F32.zero, F32.one⟩, ch := perChannel p AgcS.fresh
    C := if u.life.configured then agcCoeffs p fs u.P else u.C } := by
  rw [Agc.rst, h]
  exact congrArg Except.ok (Agc.derive_eq ..)

theorem Deess.rst_eq (h : rateOk p.toParams fs = true) (u : Deess) : u.rst p fs = .ok { u with
    life := ⟨true, u.life.configured, fs⟩, ch := perChannel p DeessS.fresh
    C := if u.life.configured then deessCoeffs p fs u.P else u.C } := by
  rw [Deess.rst, h]
  exact congrArg Except.ok (Deess.derive_eq ..)

theorem Comp.rst_eq (h : rateOk p.toParams fs = true) (u : Comp) : u.rst p fs = .ok { u with
    life := ⟨true, u.life.configured, fs⟩, gain := perChannel p F32.one
    C := if u.life.configured then compCoeffs p fs u.P else u.C } := by
  rw [Comp.rst, h]
  exact congrArg Except.ok (Comp.derive_eq ..)

theorem Fet.rst_eq (h : rateOk p.toParams fs = true) (u : Fet) : u.rst p fs = .ok { u with
    life := ⟨true, u.life.configured, fs⟩, K := ⟨F32.zero, fetThLin p F32.zero⟩
    envelope := perChannel p F32.zero
    C := if u.life.configured then fetCoeffs p fs u.P else u.C } := by
  rw [Fet.rst, h]
  exact congrArg Except.ok (Fet.derive_eq ..)

theorem Pitch.rst_eq (h : rateOk p.toParams fs = true) (u : Pitch) : u.rst p fs = .ok { u with
    life := ⟨true, u.life.configured, fs⟩, ch := perChannel p (PitchS.fresh (pitchCap p fs))
    C := if u.life.configured then pitchCoeffs p fs u.P else u.C } := by
  rw [Pitch.rst, h]
  exact congrArg Except.ok (Pitch.derive_eq ..)

theorem Fdn.rst_eq (h : rateOk p.toParams fs = true) (u : Fdn) : u.rst p fs = .ok { u with
    life := ⟨true, u.life.configured, fs⟩, ch := perChannel p (FdnS.fresh (fdnCap p fs))
    C := if u.life.configured then fdnCoeffs p fs u.P else u.C } := by
  rw [Fdn.rst, h]
  exact congrArg Except.ok (Fdn.derive_eq ..)

theorem Lim.rst_eq (h : rateOk p.toParams fs = true) (u : Lim) : u.rst p fs = .ok { u with
    life := ⟨true, u.life.configured, fs⟩, ch := perChannel p (LimS.fresh (limCap p fs))
    C := if u.life.configured then limCoeffs p fs u.P else u.C } := by
  rw [Lim.rst, h]
  exact congrArg Except.ok (Lim.derive_eq ..)

theorem Xn.rst_eq (h : rateOk p.toParams fs = true) (u : Xn) : u.rst p fs = .ok { u with
    life := ⟨true, u.life.configured, fs⟩, lps := perChannel p Six.zero, acc := XnAcc.empty, out := XnOut.neutral
    klp := if u.life.configured then xnCoeffs p fs u.P else u.klp } := by
  rw [Xn.rst, h]
  exact congrArg Except.ok (Xn.derive_eq ..)

theorem Wid.rst_eq (h : rateOk p.toParams fs = true) (u : Wid) : u.rst p fs = .ok { u with
    life := ⟨true, u.life.configured, fs⟩, pairs := List.replicate (p.nch / 2) WidS.fresh
    k := if u.life.configured then lowpassCoef p fs u.P.bassFreq else u.k } := by
  rw [Wid.rst, h]
  exact congrArg Except.ok (Wid.derive_eq ..)

theorem Sat.rst_eq (h : rateOk p.toParams fs = true) (u : Sat) : u.rst p fs = .ok { u with
    life := ⟨true, u.life.configured, fs⟩, driveScale := F32.one, C := satTone p fs
    ch := perChannel p SatS.fresh } := by
  rw [Sat.rst, h]; rfl

theorem Rvs.rst_eq (h : rateOk p.toParams fs = true) (u : Rvs) : u.rst p fs = .ok { u with
    life := ⟨true, u.life.configured, fs⟩, clen := rvsClen p fs, alen := rvsAlen p fs
    ch := perChannel p (RvsS.fresh (rvsClen p fs) (rvsAlen p fs)) } := by
  rw [Rvs.rst, h]; rfl

/-- The delay's `CURRENT` starts at `TARGET` where it is configured, and at 2.0 with a snap pending otherwise (rule
R296). -/
theorem Dly.rst_eq (h : rateOk p.toParams fs = true) (u : Dly) : u.rst p fs = .ok { u with
    life := ⟨true, u.life.configured, fs⟩, snap := !u.life.configured
    target := if u.life.configured then dlyTarget p fs u.P.timeMs else u.target
    ch := perChannel p ⟨if u.life.configured then dlyTarget p fs u.P.timeMs else F32.two, 0,
      Memory.sized (dlyCap p fs)⟩ } := by
  rw [Dly.rst, h]
  rcases u with ⟨⟨active, configured, fsEff⟩, snap, P, target, ch⟩
  cases configured
  · rfl
  · simp [Dly.restart, Dly.derive_eq, Dly.jump, Life.ready, Life.reset, perChannel, DlyS.fresh]

theorem Bq.reset_eq (p : Ctx) (fs : F32) (u : Bq) : u.reset p fs = { u with
    life := ⟨true, u.life.configured, fs⟩, gainOffDb := F32.zero, taps := perChannel p BqTaps.zero
    C := if u.life.configured then bqCoeffs p u.P.type u.P.freq u.P.q (p.add u.P.gainDb F32.zero) fs else u.C } :=
  Bq.derive_eq ..

theorem Svf.reset_eq (p : Ctx) (fs : F32) (u : Svf) : u.reset p fs = { u with
    life := ⟨true, u.life.configured, fs⟩, gainOffDb := F32.zero, ch := perChannel p SvfS.zero
    C := if u.life.configured then svfCoeffs p u.P.freq u.P.q (p.add u.P.gainDb F32.zero) fs else u.C } :=
  Svf.derive_eq ..

end

/-! ### CFG of a unit (rule R36) -/

theorem Env.cfg_eq (p : Ctx) (u : Env) (P : EnvP) : u.cfg p P =
    { u with
      P := P, life := { u.life with configured := true }
      C := if u.life.active then envCoeffs p u.life.fsEff P else u.C } := by
  rw [Env.cfg, Env.derive_eq, Life.ready_configure]; rfl

theorem Bq.cfg_eq (p : Ctx) (u : Bq) (P : BqP) : u.cfg p P =
    { u with
      P := P, life := { u.life with configured := true }
      C := if u.life.active then bqCoeffs p P.type P.freq P.q (p.add P.gainDb u.gainOffDb) u.life.fsEff else u.C } := by
  rw [Bq.cfg, Bq.derive_eq, Life.ready_configure]; rfl

theorem Svf.cfg_eq (p : Ctx) (u : Svf) (P : SvfP) : u.cfg p P =
    { u with
      P := P, life := { u.life with configured := true }
      C := if u.life.active then svfCoeffs p P.freq P.q (p.add P.gainDb u.gainOffDb) u.life.fsEff else u.C } := by
  rw [Svf.cfg, Svf.derive_eq, Life.ready_configure]; rfl

theorem Gate.cfg_eq (p : Ctx) (u : Gate) (P : GateP) : u.cfg p P =
    { u with
      P := P, life := { u.life with configured := true }
      C := if u.life.active then gateCoeffs p u.life.fsEff P else u.C } := by
  rw [Gate.cfg, Gate.derive_eq, Life.ready_configure]; rfl

theorem Agc.cfg_eq (p : Ctx) (u : Agc) (P : AgcP) : u.cfg p P =
    { u with
      P := P, life := { u.life with configured := true }
      C := if u.life.active then agcCoeffs p u.life.fsEff P else u.C } := by
  rw [Agc.cfg, Agc.derive_eq, Life.ready_configure]; rfl

theorem Deess.cfg_eq (p : Ctx) (u : Deess) (P : DeessP) : u.cfg p P =
    { u with
      P := P, life := { u.life with configured := true }
      C := if u.life.active then deessCoeffs p u.life.fsEff P else u.C } := by
  rw [Deess.cfg, Deess.derive_eq, Life.ready_configure]; rfl

theorem Comp.cfg_eq (p : Ctx) (u : Comp) (P : CompP) : u.cfg p P =
    { u with
      P := P, life := { u.life with configured := true }
      C := if u.life.active then compCoeffs p u.life.fsEff P else u.C } := by
  rw [Comp.cfg, Comp.derive_eq, Life.ready_configure]; rfl

theorem Fet.cfg_eq (p : Ctx) (u : Fet) (P : FetP) : u.cfg p P =
    { u with
      P := P, life := { u.life with configured := true }
      C := if u.life.active then fetCoeffs p u.life.fsEff P else u.C } := by
  rw [Fet.cfg, Fet.derive_eq, Life.ready_configure]; rfl

theorem Pitch.cfg_eq (p : Ctx) (u : Pitch) (P : PitchP) : u.cfg p P =
    { u with
      P := P, life := { u.life with configured := true }
      C := if u.life.active then pitchCoeffs p u.life.fsEff P else u.C } := by
  rw [Pitch.cfg, Pitch.derive_eq, Life.ready_configure]; rfl

theorem Fdn.cfg_eq (p : Ctx) (u : Fdn) (P : FdnP) : u.cfg p P =
    { u with
      P := P, life := { u.life with configured := true }
      C := if u.life.active then fdnCoeffs p u.life.fsEff P else u.C } := by
  rw [Fdn.cfg, Fdn.derive_eq, Life.ready_configure]; rfl

theorem Wid.cfg_eq (p : Ctx) (u : Wid) (P : WidP) : u.cfg p P =
    { u with
      P := P, life := { u.life with configured := true }
      k := if u.life.active then lowpassCoef p u.life.fsEff P.bassFreq else u.k } := by
  rw [Wid.cfg, Wid.derive_eq, Life.ready_configure]; rfl

theorem Lim.cfg_eq (p : Ctx) (u : Lim) (P : LimP) : u.cfg p P =
    { u with
      P := P, life := { u.life with configured := true }
      C := if u.life.active then limCoeffs p u.life.fsEff P else u.C } := by
  rw [Lim.cfg, Lim.derive_eq, Life.ready_configure]; rfl

theorem Xn.cfg_eq (p : Ctx) (u : Xn) (P : XnP) : u.cfg p P =
    { u with
      P := P, life := { u.life with configured := true }
      klp := if u.life.active then xnCoeffs p u.life.fsEff P else u.klp } := by
  rw [Xn.cfg, Xn.derive_eq, Life.ready_configure]; rfl

/-- CFG of the delay while it is not active (rule R292). -/
theorem Dly.cfg_inactive (p : Ctx) {u : Dly} (P : DlyP) (ha : u.life.active = false) : u.cfg p P =
    { u with P := P, life := { u.life with configured := true } } := by
  simp [Dly.cfg, Dly.derive_eq, Life.ready, Life.configure, ha]

/-- CFG of an active delay with no snap pending: `CURRENT` is left to glide (rules R292, R296). -/
theorem Dly.cfg_glides (p : Ctx) {u : Dly} (P : DlyP) (ha : u.life.active = true) (hs : u.snap = false) : u.cfg p P =
    { u with
      P := P, life := { u.life with configured := true }
      target := dlyTarget p u.life.fsEff P.timeMs } := by
  simp [Dly.cfg, Dly.derive_eq, Life.ready, Life.configure, ha, hs]

/-- CFG of an active delay with a snap pending: `CURRENT` jumps to `TARGET` (rules R292, R296). -/
theorem Dly.cfg_jumps (p : Ctx) {u : Dly} (P : DlyP) (ha : u.life.active = true) (hs : u.snap = true) : u.cfg p P =
    { u with
      P := P, life := { u.life with configured := true }, snap := false
      target := dlyTarget p u.life.fsEff P.timeMs
      ch := u.ch.map fun c => { c with current := dlyTarget p u.life.fsEff P.timeMs } } := by
  simp [Dly.cfg, Dly.derive_eq, Life.ready, Life.configure, Dly.jump, ha, hs]

/-! ### The commands -/

/-- Settles O21: RST of each unit at the state, with the rate accepted and not. -/
theorem rstOfUnitsWithoutMemory : Obligations.RstOfUnitsWithoutMemory := by
  intro s fs
  refine ⟨fun hpos hmax => ?_, fun hbad => ?_⟩
  · have h : rateOk s.ctx.toParams fs = true := rateOk_iff.2 ⟨hpos, hmax⟩
    exact ⟨conclude_put _ (Env.rst_eq h _), conclude_put _ (Gate.rst_eq h _), conclude_put _ (Agc.rst_eq h _),
      conclude_put _ (Deess.rst_eq h _), conclude_put _ (Comp.rst_eq h _), conclude_put _ (Fet.rst_eq h _),
      conclude_put _ (Sat.rst_eq h _), conclude_put _ (Wid.rst_eq h _), conclude_put _ (Xn.rst_eq h _)⟩
  · have h : rateOk s.ctx.toParams fs = false := rateOk_eq_false_iff.2 hbad
    simp only [List.forall_mem_cons]
    exact ⟨conclude_bind_error (Env.rst_error _ _ _ h), conclude_bind_error (Gate.rst_error _ _ _ h),
      conclude_bind_error (Agc.rst_error _ _ _ h), conclude_bind_error (Deess.rst_error _ _ _ h),
      conclude_bind_error (Comp.rst_error _ _ _ h), conclude_bind_error (Fet.rst_error _ _ _ h),
      conclude_bind_error (Sat.rst_error _ _ _ h), conclude_bind_error (Wid.rst_error _ _ _ h),
      conclude_bind_error (Xn.rst_error _ _ _ h), nofun⟩

/-- Settles O22: RST of each unit with a memory, and of OS. -/
theorem rstSizesAndClearsMemories : Obligations.RstSizesAndClearsMemories := by
  intro s fs
  refine ⟨fun cap i => ⟨Memory.sized_cap cap, Memory.sized_read cap i⟩, fun hpos hmax => ?_, rfl, fun hbad => ?_⟩
  · have h : rateOk s.ctx.toParams fs = true := rateOk_iff.2 ⟨hpos, hmax⟩
    exact ⟨conclude_put _ (Pitch.rst_eq h _), conclude_put _ (Dly.rst_eq h _), conclude_put _ (Rvs.rst_eq h _),
      conclude_put _ (Fdn.rst_eq h _), conclude_put _ (Lim.rst_eq h _)⟩
  · have h : rateOk s.ctx.toParams fs = false := rateOk_eq_false_iff.2 hbad
    simp only [List.forall_mem_cons]
    exact ⟨conclude_bind_error (Pitch.rst_error _ _ _ h), conclude_bind_error (Dly.rst_error _ _ _ h),
      conclude_bind_error (Rvs.rst_error _ _ _ h), conclude_bind_error (Fdn.rst_error _ _ _ h),
      conclude_bind_error (Lim.rst_error _ _ _ h), nofun⟩

/-- A command that puts a new value of one unit into the state, without a check, completes with that value. -/
theorem complete_put {U : Type} {u v : U} (put : U → State) (h : u = v) :
    (.next ((put u).complete []) : Host.Outcome State Fault Refusal) = .next ((put v).complete []) := by
  rw [h]

/-- Settles O23: CFG of each unit at the state, the delay by its flags. -/
theorem cfgWritesParametersAndCoefficients : Obligations.CfgWritesParametersAndCoefficients := by
  intro s a b c d e f g m ty
  have delay {u : Dly} (h : s.dly.cfg s.ctx ⟨a, b, c⟩ = u) :
      exec (.dlyCfg a b c) s = .next (State.complete { s with dly := u } []) :=
    complete_put (fun u => { s with dly := u }) h
  exact ⟨complete_put (fun u => { s with env := u }) (Env.cfg_eq ..),
    complete_put (fun u => { s with gate := u }) (Gate.cfg_eq ..),
    complete_put (fun u => { s with agc := u }) (Agc.cfg_eq ..),
    complete_put (fun u => { s with deess := u }) (Deess.cfg_eq ..),
    complete_put (fun u => { s with comp := u }) (Comp.cfg_eq ..),
    complete_put (fun u => { s with fet := u }) (Fet.cfg_eq ..), rfl,
    complete_put (fun u => { s with pitch := u }) (Pitch.cfg_eq ..), rfl,
    complete_put (fun u => { s with fdn := u }) (Fdn.cfg_eq ..),
    complete_put (fun u => { s with wid := u }) (Wid.cfg_eq ..),
    complete_put (fun u => { s with lim := u }) (Lim.cfg_eq ..),
    complete_put (fun u => { s with xn := u }) (Xn.cfg_eq ..),
    fun ha => delay (Dly.cfg_inactive _ _ ha), fun ha hs => delay (Dly.cfg_glides _ _ ha hs),
    fun ha hs => delay (Dly.cfg_jumps _ _ ha hs)⟩

/-! ### BQ and SVF, instance by instance -/

theorem Bq.goff_eq {u : Bq} (p : Ctx) (v : F32) (ha : u.life.active = true) : u.goff p v = .ok { u with
    gainOffDb := v
    C := if u.life.configured then bqCoeffs p u.P.type u.P.freq u.P.q (p.add u.P.gainDb v) u.life.fsEff
      else u.C } := by
  simp [Bq.goff, Life.needActive, ha, Bq.derive_eq, Life.ready]

theorem Svf.goff_eq {u : Svf} (p : Ctx) (v : F32) (ha : u.life.active = true) : u.goff p v = .ok { u with
    gainOffDb := v
    C := if u.life.configured then svfCoeffs p u.P.freq u.P.q (p.add u.P.gainDb v) u.life.fsEff else u.C } := by
  simp [Svf.goff, Life.needActive, ha, Svf.derive_eq, Life.ready]

/-- GOFF of an instance that exists is that instance's (rules R118, R177). -/
theorem State.bqGoff_of_lt {s : State} {i : Nat} (v : F32) (h : i < s.params.neq) :
    s.bqGoff i v = (s.bqAt i).goff s.ctx v >>= fun u => pure (s.setBq i u) := by
  simp [State.bqGoff, h]

/-- GOFF of an instance that exists is that instance's (rules R118, R186). -/
theorem State.svfGoff_of_lt {s : State} {i : Nat} (v : F32) (h : i < s.params.neq) :
    s.svfGoff i v = (s.svfAt i).goff s.ctx v >>= fun u => pure (s.setSvf i u) := by
  simp [State.svfGoff, h]

/-- RST of every instance of BQ and of SVF at an accepted rate (rules R171, R181). -/
theorem filterRst_eq {s : State} {fs : F32} (h : rateOk s.params fs = true) :
    s.bqRst fs = .ok { s with bq := s.bq.map (Bq.reset s.ctx fs) } ∧
    s.svfRst fs = .ok { s with svf := s.svf.map (Svf.reset s.ctx fs) } := by
  simp [State.bqRst, State.svfRst, h]

theorem filterRst_error {s : State} {fs : F32} (h : rateOk s.params fs = false) :
    s.bqRst fs = .error .param ∧ s.svfRst fs = .error .param := by
  simp [State.bqRst, State.svfRst, h]

/-- CFG of a filter instance that exists passes its check. -/
theorem conclude_band {s t : State} {i : BitVec 8} (h : i.toNat < s.params.neq) :
    conclude s (do require (bandOk s.params i) .illegal; pure (t, [])) = .next (t.complete []) := by
  simp [bandOk, h]

/-- Settles O25: RST of every instance, CFG and GOFF of the one named. -/
theorem filterInstancesAreResetAndConfigured : Obligations.FilterInstancesAreResetAndConfigured := by
  intro s fs freq q gain idx bt st
  refine ⟨fun hpos hmax => ?_, fun hbad => ?_, fun hi =>
    ⟨⟨?_, fun ha => ?_, fun ha => ?_⟩, ⟨?_, fun ha => ?_, fun ha => ?_⟩⟩⟩
  · obtain ⟨hbq, hsvf⟩ := filterRst_eq (s := s) (rateOk_iff.2 ⟨hpos, hmax⟩)
    rw [funext (Bq.reset_eq s.ctx fs)] at hbq
    rw [funext (Svf.reset_eq s.ctx fs)] at hsvf
    exact ⟨conclude_put id hbq, conclude_put id hsvf⟩
  · obtain ⟨hbq, hsvf⟩ := filterRst_error (s := s) (rateOk_eq_false_iff.2 hbad)
    exact ⟨conclude_bind_error hbq, conclude_bind_error hsvf⟩
  · rw [← Bq.cfg_eq s.ctx (s.bqAt idx.toNat) ⟨bt, freq, q, gain⟩]
    exact conclude_band hi
  · exact conclude_bind_error (by rw [State.bqGoff_of_lt gain hi, Bq.goff, Life.needActive, ha]; rfl)
  · exact conclude_put id (by rw [State.bqGoff_of_lt gain hi, Bq.goff_eq s.ctx gain ha]; rfl)
  · rw [← Svf.cfg_eq s.ctx (s.svfAt idx.toNat) ⟨st, freq, q, gain⟩]
    exact conclude_band hi
  · exact conclude_bind_error (by rw [State.svfGoff_of_lt gain hi, Svf.goff, Life.needActive, ha]; rfl)
  · exact conclude_put id (by rw [State.svfGoff_of_lt gain hi, Svf.goff_eq s.ctx gain ha]; rfl)

/-- Settles O54: the check for a block, then the state that DEINIT leaves. -/
theorem pipeDeinitClearsActiveOnly : Obligations.PipeDeinitClearsActiveOnly := by
  intro s
  refine ⟨fun ha hb => ?_, fun h => ?_⟩
  · have hm : s.pipe.midBlock = true := Bool.and_eq_true_iff.2 ⟨ha, hb⟩
    simp [exec, execPipeDeinit, hm]
  · have hm : s.pipe.midBlock = false := Bool.eq_false_iff.2 fun hm => h (Bool.and_eq_true_iff.1 hm)
    simp only [exec, execPipeDeinit, hm, Bool.not_false, require_true, Except.bind_ok', Except.pure_ok', conclude_ok]
    rfl

end Sys2Proof.Machine
end

section
/-! The register space (rules R31 to R54, R66, R71, R88, R118, R400, R401, R451): which addresses are registers, the
checks and the outcomes of RD and WR, the register files unit by unit, what each register accepts, and what can be read
at power-on. -/

namespace Sys2Proof.Machine

/-! ### Which addresses are registers -/

/-- How many registers the numbered file of a unit has: the last of its bounds. -/
def regCount (u : UnitId) : Nat := ((regFile u).map Prod.fst).foldr max 0

theorem classBelow_eq_none {l : List (Nat × RegClass)} {r : Nat} :
    classBelow l r = none ↔ (l.map Prod.fst).foldr max 0 ≤ r := by
  induction l with
  | nil => simp [classBelow]
  | cons b rest ih =>
    unfold classBelow
    split
    · simp; omega
    · simp [ih]; omega

theorem classBelow_mem {l : List (Nat × RegClass)} {r : Nat} {cls : RegClass} (h : classBelow l r = some cls) :
    cls ∈ l.map Prod.snd := by
  induction l with
  | nil => cases h
  | cons b rest ih =>
    unfold classBelow at h
    split at h
    · cases h; simp
    · simp [ih h]

/-- A unit has the registers of its file, `UFLAGS` and `FS_EFF`, and no other (rules R33, R88). -/
theorem regClass_eq_none {u : UnitId} {r : Nat} (h : regCount u ≤ r) (hflags : r ≠ 0xF0) (hrate : r ≠ 0xF1) :
    regClass u r = none := by
  simp only [regClass, hflags, hrate, if_false]
  exact classBelow_eq_none.2 h

theorem regCount_le (u : UnitId) : regCount u ≤ 80 := by cases u <;> decide

/-- The class of a register that is neither `UFLAGS` nor `FS_EFF` stands in the unit's table. -/
theorem regClass_mem {u : UnitId} {r : Nat} {cls : RegClass} (h : regClass u r = some cls) :
    cls = .flags ∧ r = 0xF0 ∨ cls = .rate ∧ r = 0xF1 ∨ cls ∈ (regFile u).map Prod.snd := by
  unfold regClass at h
  split at h
  · cases h; exact .inl ⟨rfl, ‹_›⟩
  · split at h
    · cases h; exact .inr (.inl ⟨rfl, ‹_›⟩)
    · exact .inr (.inr (classBelow_mem h))

/-- A register that is neither `UFLAGS` nor `FS_EFF` is numbered below the unit's count. -/
theorem regCount_of_class {u : UnitId} {r : Nat} {cls : RegClass} (h : regClass u r = some cls)
    (hflags : cls ≠ .flags) (hrate : cls ≠ .rate) : r < regCount u := by
  by_contra hge
  have h0 : r ≠ 0xF0 := by rintro rfl; cases h; exact hflags rfl
  have h1 : r ≠ 0xF1 := by rintro rfl; cases h; exact hrate rfl
  rw [regClass_eq_none (Nat.not_lt.1 hge) h0 h1] at h
  cases h

/-- `UFLAGS` is register 0xF0 of every unit (rule R33). -/
theorem regClass_eq_flags {u : UnitId} {r : Nat} (h : regClass u r = some .flags) : r = 0xF0 := by
  rcases regClass_mem h with ⟨-, hr⟩ | ⟨hc, -⟩ | hm
  · exact hr
  · cases hc
  · exact absurd hm (by cases u <;> decide)

/-- `PIPE.STATUS` is the one register of its class (rule R69). -/
theorem regClass_eq_status {u : UnitId} {r : Nat} (h : regClass u r = some .status) : u = .pipe ∧ r = 14 := by
  have hu : u = .pipe := by
    rcases regClass_mem h with ⟨hc, -⟩ | ⟨hc, -⟩ | hm
    · cases hc
    · cases hc
    · revert hm; cases u <;> decide
  subst hu
  have only : ∀ r < regCount .pipe, regClass .pipe r = some .status → r = 14 := by decide
  exact ⟨rfl, only r (regCount_of_class h nofun nofun) h⟩

theorem instances_eq (p : Params) (u : UnitId) : instances p u = if u = .bq ∨ u = .svf then p.neq else 1 := by
  cases u <;> rfl

theorem copyExists_iff {p : Params} {u : UnitId} {cls : RegClass} {c : Nat} : copyExists p u cls c = true ↔
    if cls = .s then (if u = .wid then c % 2 = 0 ∧ c + 1 < p.nch else c < p.nch) else c = 0 := by
  by_cases hs : cls = .s
  · subst hs
    cases u <;> simp [copyExists]
  · cases cls <;> simp_all [copyExists]

/-- The addresses that are registers (rule R118). -/
theorem addressOk_iff {p : Params} {u : UnitId} {c i r : Nat} : addressOk p u c i r = true ↔
    ∃ cls, regClass u r = some cls ∧ i < instances p u ∧ copyExists p u cls c = true := by
  unfold addressOk
  cases regClass u r <;> simp

/-! ### The outcomes of RD and WR -/

theorem checkClass_inactive {cls : RegClass} {l : Life} (hn : cls.needsActive = true) (ha : l.active = false) :
    checkClass cls l = .error .inactive := by
  simp [checkClass, hn, ha]

theorem checkClass_unconfigured {cls : RegClass} {l : Life} (ha : cls.needsActive = true → l.active = true)
    (hn : cls.needsConfigured = true) (hc : l.configured = false) : checkClass cls l = .error .unconfigured := by
  have hok : (!cls.needsActive || l.active) = true := by
    cases h : cls.needsActive
    · rfl
    · exact ha h
  simp [checkClass, hok, hn, hc]

section
variable {s : State} {u : UnitId} {c i r : Nat} {cls : RegClass}

theorem State.registerClass_illegal (h : addressOk s.params u c i r = false) :
    s.registerClass u c i r = .error .illegal := by
  unfold State.registerClass
  cases regClass u r <;> simp [h]

theorem State.readReg_illegal (h : addressOk s.params u c i r = false) : s.readReg u c i r = .error .illegal := by
  rw [State.readReg, State.registerClass_illegal h]; rfl

/-- RD of a register: the checks of its class, then its word (rule R400). -/
theorem State.readReg_of_class (ha : addressOk s.params u c i r = true) (hc : regClass u r = some cls) :
    s.readReg u c i r = checkClass cls (s.access u c i r).life >>= fun _ => pure (s.access u c i r).value := by
  rw [State.readReg, State.registerClass_eq_ok.2 ⟨hc, ha⟩]; rfl

theorem State.writeReg_illegal (w : Word) (h : addressOk s.params u c i r = false ∨ readOnlyReg u r = true) :
    s.writeReg u c i r w = .error .illegal := by
  cases ha : addressOk s.params u c i r
  · rw [State.writeReg, State.registerClass_illegal ha]; rfl
  · obtain ⟨cls, hc, -⟩ := addressOk_iff.1 ha
    have hro : readOnlyReg u r = true := h.resolve_left (by simp [ha])
    rw [State.writeReg, State.registerClass_eq_ok.2 ⟨hc, ha⟩, hro]; rfl

/-- WR of a register that it may write: the checks of its class, then whether the register accepts the word (rule
R401). -/
theorem State.writeReg_of_class (w : Word) (ha : addressOk s.params u c i r = true) (hc : regClass u r = some cls)
    (hro : readOnlyReg u r = false) : s.writeReg u c i r w =
      checkClass cls (s.access u c i r).life >>= fun _ => acceptedBy ((s.access u c i r).write w) := by
  rw [State.writeReg, State.registerClass_eq_ok.2 ⟨hc, ha⟩, hro]; rfl

end

/-! ### The register files -/

/-- A register file is what the views of the unit read, register by register, with the classes of the map. -/
theorem State.registerFile_of_views {U : Type} {s : State} {unit : UnitId} {c i : Nat} {life : Life} {snap : Bool}
    {views : List (View U)} {u : U} {put : U → State} {regs : List (RegClass × Word)}
    (haccess : ∀ r, s.access unit c i r = unitAccess life snap views u put c r)
    (hlength : regs.length = regCount unit)
    (hclass : regs.map (fun x => some x.1) = (List.range (regCount unit)).map (regClass unit))
    (hword : regs.map Prod.snd = views.map (fun view => view.get u c)) :
    s.registerFile unit c i life snap regs := by
  refine ⟨fun r cls w h => ?_, fun r hr h0 h1 => regClass_eq_none (hlength ▸ hr) h0 h1, fun r => by rw [haccess]; rfl,
    rfl, rfl, by rw [haccess]; rfl, by rw [haccess]; rfl⟩
  have hr : r < regCount unit := hlength ▸ (List.getElem?_eq_some_iff.1 h).1
  have hfile : r < 80 := Nat.lt_of_lt_of_le hr (regCount_le unit)
  constructor
  · have hat := congrArg (fun l => l[r]?) hclass
    simpa [h, hr, eq_comm] using hat
  · have hat := congrArg (fun l => l[r]?) hword
    simp only [List.getElem?_map, h, Option.map_some] at hat
    obtain ⟨view, hview, hget⟩ := Option.map_eq_some_iff.1 hat.symm
    simp [haccess, unitAccess, hview, hget, show r ≠ 0xF0 by omega, show r ≠ 0xF1 by omega]

/-- RD: the address, the checks of the class, the word (rule R400). -/
theorem execRd_outcomes (s : State) (u : UnitId) (ch : BitVec 4) (idx reg : BitVec 8) (cls : RegClass) :
    (addressOk s.params u ch.toNat idx.toNat reg.toNat = false → exec (.rd u ch idx reg) s = .next (s.raise .illegal)) ∧
    (addressOk s.params u ch.toNat idx.toNat reg.toNat = true → regClass u reg.toNat = some cls →
      let a := s.access u ch.toNat idx.toNat reg.toNat
      (cls.needsActive = true → a.life.active = false → exec (.rd u ch idx reg) s = .next (s.raise .inactive)) ∧
      ((cls.needsActive = true → a.life.active = true) → cls.needsConfigured = true → a.life.configured = false →
        exec (.rd u ch idx reg) s = .next (s.raise .unconfigured)) ∧
      ((cls.needsActive = true → a.life.active = true) → (cls.needsConfigured = true → a.life.configured = true) →
        exec (.rd u ch idx reg) s = .next (s.complete [a.value]))) := by
  refine ⟨fun h => conclude_bind_error (State.readReg_illegal h), fun ha hc => ?_⟩
  have hread := State.readReg_of_class ha hc
  refine ⟨fun hn hl => conclude_bind_error ?_, fun hl hn hf => conclude_bind_error ?_, fun hl hf => ?_⟩
  · rw [hread, checkClass_inactive hn hl]; rfl
  · rw [hread, checkClass_unconfigured hl hn hf]; rfl
  · rw [checkClass_eq_ok (v := ()).2 ⟨hl, hf⟩] at hread
    simp only [exec, execRd, hread]
    rfl

/-- Settles O15: the outcomes of RD, the map of the registers, and the register files by the views of each unit. -/
theorem rdReadsOneRegister : Obligations.RdReadsOneRegister := by
  refine ⟨fun s u ch idx reg cls => ?_, fun p u c i r => ?_, fun cls => ?_, ⟨rfl, rfl, rfl, rfl⟩, fun s c i => ?_⟩
  · obtain ⟨hillegal, hlegal⟩ := execRd_outcomes s u ch idx reg cls
    exact ⟨by rw [encode, commandWord_eq]; rfl, hillegal, hlegal⟩
  · simp only [addressOk_iff, instances_eq, copyExists_iff]
  · cases cls <;> decide
  · refine ⟨?_, ?_, ?_, ?_, ?_, ?_, ?_, ?_, ?_, ?_, ?_, ?_, ?_, ?_, ?_, ?_, ?_, ?_⟩ <;>
      exact State.registerFile_of_views (fun _ => rfl) rfl rfl rfl

/-- Settles O16: the read-only registers, then the outcomes of WR. -/
theorem wrWritesOneRegister : Obligations.WrWritesOneRegister := by
  refine ⟨fun u r => ?_, fun s u ch idx reg v cls => ⟨by rw [encode, commandWord_eq]; rfl, fun h => ?_,
    fun ha hro hc => ?_⟩⟩
  · cases u <;> simp [readOnlyReg, or_assoc]
  · exact conclude_bind_error (State.writeReg_illegal v h)
  have hwrite := State.writeReg_of_class v ha hc hro
  refine ⟨fun hn hl => conclude_bind_error ?_, fun hl hn hf => conclude_bind_error ?_, fun hl hf => ?_⟩
  · rw [hwrite, checkClass_inactive hn hl]; rfl
  · rw [hwrite, checkClass_unconfigured hl hn hf]; rfl
  · rw [checkClass_eq_ok (v := ()).2 ⟨hl, hf⟩, Except.bind_ok'] at hwrite
    exact ⟨fun h => conclude_bind_error (by rw [hwrite, h]; rfl), fun t h => conclude_put id (by rw [hwrite, h]; rfl)⟩

/-! ### Power-on (rules R33, R34, R451) -/

@[simp] theorem State.bqAt_powerOn (p : Params) (i : Nat) : (State.powerOn p).bqAt i = Bq.powerOn p.nch := by
  simp only [State.bqAt, State.powerOn, List.getD_eq_getElem?_getD, List.getElem?_replicate]
  split <;> rfl

@[simp] theorem State.svfAt_powerOn (p : Params) (i : Nat) : (State.powerOn p).svfAt i = Svf.powerOn p.nch := by
  simp only [State.svfAt, State.powerOn, List.getD_eq_getElem?_getD, List.getElem?_replicate]
  split <;> rfl

/-- At power-on a unit has neither flag, but for the hard-wired `CONFIGURED` of OS. -/
theorem access_life_powerOn (p : Params) (u : UnitId) (c i r : Nat) :
    ((State.powerOn p).access u c i r).life = ⟨false, decide (u = .os), 0⟩ := by
  cases u <;> simp [State.access, unitAccess] <;> rfl

/-- `UFLAGS` at power-on. -/
theorem access_uflags_powerOn (p : Params) (u : UnitId) (c i : Nat) :
    ((State.powerOn p).access u c i 0xF0).value = if u = .os then 2 else 0 := by
  have hvalue : ((State.powerOn p).access u c i 0xF0).value =
      uflagsWord ((State.powerOn p).access u c i 0xF0).life false := by cases u <;> rfl
  rw [hvalue, access_life_powerOn]
  cases u <;> decide

/-- OS has no P register: it takes no CFG (rule R52). -/
theorem regClass_os_ne_p (r : Nat) : regClass .os r ≠ some .p := by
  intro h
  rcases regClass_mem h with ⟨hc, -⟩ | ⟨hc, -⟩ | hm
  · cases hc
  · cases hc
  · exact absurd hm (by decide)

/-- Settles O9, class by class. -/
theorem powerOnRegistersHoldNoValue : Obligations.PowerOnRegistersHoldNoValue := by
  intro p u c i r h
  obtain ⟨cls, hc, -⟩ := addressOk_iff.1 h
  rw [State.readReg_of_class h hc, access_life_powerOn]
  cases cls with
  | flags =>
    obtain rfl := regClass_eq_flags hc
    rw [access_uflags_powerOn]; rfl
  | status =>
    obtain ⟨rfl, rfl⟩ := regClass_eq_status hc
    rfl
  | p =>
    have hos : u ≠ .os := by rintro rfl; exact regClass_os_ne_p r hc
    have hflags : r ≠ 0xF0 := by rintro rfl; cases hc
    have hstatus : ¬(u = .pipe ∧ r = 14) := by rintro ⟨rfl, rfl⟩; cases hc
    rw [if_neg hflags, if_neg hstatus, if_pos hc, checkClass_unconfigured (fun hn => absurd hn (by decide)) rfl
      (decide_eq_false hos)]; rfl
  | c | tone | k | s | g | rate =>
    have hflags : r ≠ 0xF0 := by rintro rfl; cases hc
    have hstatus : ¬(u = .pipe ∧ r = 14) := by rintro ⟨rfl, rfl⟩; cases hc
    rw [if_neg hflags, if_neg hstatus, if_neg (by simp [hc]), checkClass_inactive rfl rfl]; rfl

/-! ### Which words a register accepts (rules R71, R387, R401) -/

theorem flagOf_isSome {w : Word} : (flagOf w).isSome = true ↔ w.toNat ≤ 1 := by
  unfold flagOf; split_ifs <;> simp <;> bv_omega

theorem bqTypeOf_isSome {w : Word} : (bqTypeOf w).isSome = true ↔ w.toNat ≤ 4 := by
  unfold bqTypeOf; split_ifs <;> simp <;> bv_omega

theorem svfTypeOf_isSome {w : Word} : (svfTypeOf w).isSome = true ↔ w.toNat ≤ 2 := by
  unfold svfTypeOf; split_ifs <;> simp <;> bv_omega

theorem satTypeOf_isSome {w : Word} : (satTypeOf w).isSome = true ↔ w.toNat ≤ 1 := by
  unfold satTypeOf; split_ifs <;> simp <;> bv_omega

theorem gateStateOf_isSome {w : Word} : (gateStateOf w).isSome = true ↔ w.toNat ≤ 1 := by
  unfold gateStateOf; split_ifs <;> simp <;> bv_omega

theorem accept_isSome {ok : Bool} {w : Word} : (accept ok w).isSome = true ↔ ok = true := by
  cases ok <;> simp [accept]

theorem cursorOf_isSome {cap : Nat} {w : Word} : (cursorOf cap w).isSome = true ↔ w.toNat < cap := by
  simp [cursorOf, accept_isSome]

/-- A word is accepted through the register file where the view of the register accepts it. -/
theorem unitAccess_write_isSome {U : Type} {life : Life} {snap : Bool} {views : List (View U)} {view : View U} {u : U}
    {put : U → State} {c r : Nat} {w : Word} (h : views[r]? = some view) :
    ((unitAccess life snap views u put c r).write w).isSome = (view.set u c w).isSome := by
  simp [unitAccess, h]

/-- A register that accepts every word. -/
def View.AcceptsAll {U : Type} (view : View U) : Prop := ∀ u c w, (view.set u c w).isSome = true

/-- The registers of a unit that do not accept every word: flags, enumerated registers, cursors, the Pipeline
Configuration, and those that WR may not write (rule R71). -/
def restricted : UnitId → List Nat
  | .bq | .svf => [0]
  | .sat => [1]
  | .gate => [13]
  | .agc | .fet => [4]
  | .wid => [2]
  | .pitch | .dly => [5]
  | .lim => [5, 6]
  | .fdn => [4, 5, 6, 7, 8, 9, 10, 11, 12]
  | .rvs => [3, 4, 5, 6, 7, 8, 9, 10, 11, 12, 13, 14, 15, 16, 17, 18, 19, 20, 21, 22, 31, 32, 33, 34]
  | .pipe => [0, 1, 2, 3, 4, 10, 11, 12, 13]
  | _ => []

/-- Every view of the list, numbered from `k`, is of a register in `closed` or accepts every word. -/
def AcceptsBut {U : Type} (closed : List Nat) (k : Nat) (views : List (View U)) : Prop :=
  ∀ r view, views[r]? = some view → k + r ∈ closed ∨ view.AcceptsAll

theorem AcceptsBut.nil {U : Type} {closed : List Nat} {k : Nat} : AcceptsBut closed k ([] : List (View U)) := nofun

@[simp] theorem acceptsBut_cons {U : Type} {closed : List Nat} {k : Nat} {view : View U} {views : List (View U)} :
    AcceptsBut closed k (view :: views) ↔ (k ∈ closed ∨ view.AcceptsAll) ∧ AcceptsBut closed (k + 1) views := by
  constructor
  · intro h
    exact ⟨h 0 view rfl, fun r v hv => by simpa [Nat.add_assoc, Nat.add_comm 1] using h (r + 1) v hv⟩
  · rintro ⟨h0, h⟩ r v hv
    cases r with
    | zero => cases hv; exact h0
    | succ r => simpa [Nat.add_assoc, Nat.add_comm 1] using h r v hv

theorem AcceptsBut.append {U : Type} {closed : List Nat} {k : Nat} {l m : List (View U)}
    (hl : AcceptsBut closed k l) (hm : AcceptsBut closed (k + l.length) m) : AcceptsBut closed k (l ++ m) := by
  intro r v hv
  by_cases hr : r < l.length
  · exact hl r v (by rwa [List.getElem?_append_left hr] at hv)
  · have hge := Nat.not_lt.1 hr
    have := hm (r - l.length) v (by rwa [List.getElem?_append_right hge] at hv)
    rwa [show k + l.length + (r - l.length) = k + r by omega] at this

theorem AcceptsBut.range {U : Type} {closed : List Nat} {k n : Nat} {f : Nat → View U}
    (h : ∀ j < n, k + j ∈ closed ∨ (f j).AcceptsAll) : AcceptsBut closed k ((List.range n).map f) := by
  intro r v hv
  rw [List.getElem?_map] at hv
  obtain ⟨j, hj, rfl⟩ := Option.map_eq_some_iff.1 hv
  obtain ⟨hlt, rfl⟩ := List.getElem?_eq_some_iff.1 hj
  rw [List.getElem_range]
  exact h r (by simpa using hlt)

@[simp] theorem View.raw_acceptsAll {U : Type} (get : U → Word) (set : U → Word → U) :
    (View.raw get set).AcceptsAll := fun _ _ _ => rfl

/-- A per-channel register accepts every word where the register of one copy does. -/
theorem View.copy_acceptsAll {U S : Type} {list : U → List S} {put : U → List S → U} {fresh : S} {get : S → Word}
    {set : S → Word → Option S} (h : ∀ t w, (set t w).isSome = true) :
    (View.copy list put fresh get set).AcceptsAll := by
  intro u c w
  simp [View.copy, h]


section
set_option Elab.async false

theorem widPair_acceptsAll (get : WidS → Word) (set : WidS → Word → WidS) : (widPair get set).AcceptsAll :=
  fun _ _ _ => rfl

theorem envViews_acceptBut : AcceptsBut (restricted .env) 0 envViews := by
  simp [envViews, restricted, AcceptsBut.nil, View.copy_acceptsAll]

theorem bqViews_acceptBut : AcceptsBut (restricted .bq) 0 bqViews := by
  simp [bqViews, restricted, AcceptsBut.nil, bqTap, View.copy_acceptsAll]

theorem svfViews_acceptBut : AcceptsBut (restricted .svf) 0 svfViews := by
  simp [svfViews, restricted, AcceptsBut.nil, svfCopy, View.copy_acceptsAll]

theorem gateViews_acceptBut : AcceptsBut (restricted .gate) 0 gateViews := by
  simp [gateViews, restricted, AcceptsBut.nil, gateCopy, View.copy_acceptsAll]

theorem agcViews_acceptBut : AcceptsBut (restricted .agc) 0 agcViews := by
  simp [agcViews, restricted, AcceptsBut.nil, agcCopy, View.copy_acceptsAll]

theorem deessViews_acceptBut : AcceptsBut (restricted .deess) 0 deessViews := by
  simp [deessViews, restricted, AcceptsBut.nil, deessCopy, View.copy_acceptsAll]

theorem compViews_acceptBut : AcceptsBut (restricted .comp) 0 compViews := by
  simp [compViews, restricted, AcceptsBut.nil, View.copy_acceptsAll]

theorem fetViews_acceptBut : AcceptsBut (restricted .fet) 0 fetViews := by
  simp [fetViews, restricted, AcceptsBut.nil, View.copy_acceptsAll]

theorem satViews_acceptBut : AcceptsBut (restricted .sat) 0 satViews := by
  simp [satViews, restricted, AcceptsBut.nil, satCopy, View.copy_acceptsAll]

theorem pitchViews_acceptBut : AcceptsBut (restricted .pitch) 0 pitchViews := by
  simp [pitchViews, restricted, AcceptsBut.nil, pitchCopy, View.copy_acceptsAll]

theorem dlyViews_acceptBut : AcceptsBut (restricted .dly) 0 dlyViews := by
  simp [dlyViews, restricted, AcceptsBut.nil, dlyCopy, View.copy_acceptsAll]

theorem widViews_acceptBut : AcceptsBut (restricted .wid) 0 widViews := by
  simp [widViews, restricted, AcceptsBut.nil, widPair_acceptsAll]

theorem limViews_acceptBut : AcceptsBut (restricted .lim) 0 limViews := by
  simp [limViews, restricted, AcceptsBut.nil, limCopy, View.copy_acceptsAll]

theorem xnViews_acceptBut : AcceptsBut (restricted .xn) 0 xnViews := by
  simp [xnViews, restricted, AcceptsBut.nil, xnCopy, View.copy_acceptsAll]

theorem rvsViews_acceptBut : AcceptsBut (restricted .rvs) 0 rvsViews := by
  refine .append (.append (.append (.append (.append ?_ (.range ?_)) (.range ?_)) (.range ?_)) (.range ?_)) (.range ?_)
  · simp [AcceptsBut.nil]
  · exact fun j hj => .inl (by interval_cases j <;> decide)
  · exact fun j hj => .inl (by interval_cases j <;> decide)
  · exact fun j hj => .inl (by interval_cases j <;> decide)
  · exact fun j _ => .inr (View.copy_acceptsAll fun _ _ => rfl)
  · exact fun j hj => .inl (by interval_cases j <;> decide)

theorem fdnViews_acceptBut : AcceptsBut (restricted .fdn) 0 fdnViews := by
  refine .append (.append (.append ?_ (.range ?_)) ?_) (.range ?_)
  · simp [AcceptsBut.nil]
  · exact fun j hj => .inl (by interval_cases j <;> decide)
  · simp [AcceptsBut.nil, restricted]
  · exact fun j _ => .inr (View.copy_acceptsAll fun _ _ => rfl)

theorem osViews_acceptBut : AcceptsBut (restricted .os) 0 osViews :=
  .append (.range fun _ _ => .inr (View.copy_acceptsAll fun _ _ => rfl))
    (.range fun _ _ => .inr (View.copy_acceptsAll fun _ _ => rfl))

theorem pipeViews_acceptBut (p : Params) : AcceptsBut (restricted .pipe) 0 (pipeViews p) := by
  simp [pipeViews, restricted, AcceptsBut.nil]

end

/-- A register outside the restricted ones accepts every word. -/
theorem AcceptsBut.isSome {U : Type} {closed : List Nat} {views : List (View U)} (h : AcceptsBut closed 0 views)
    {life : Life} {snap : Bool} {u : U} {put : U → State} {c r : Nat} {w : Word} (hr : r < views.length)
    (hnot : r ∉ closed) : ((unitAccess life snap views u put c r).write w).isSome = true := by
  have hview := List.getElem?_eq_getElem hr
  rw [unitAccess_write_isSome hview]
  exact (h r _ hview).resolve_left (by simpa using hnot) u c w

theorem State.access_write_isSome (s : State) {u : UnitId} (c i : Nat) {r : Nat} (w : Word) (hr : r < regCount u)
    (hnot : r ∉ restricted u) : ((s.access u c i r).write w).isSome = true := by
  cases u with
  | env => exact envViews_acceptBut.isSome hr hnot
  | bq => exact bqViews_acceptBut.isSome hr hnot
  | svf => exact svfViews_acceptBut.isSome hr hnot
  | gate => exact gateViews_acceptBut.isSome hr hnot
  | agc => exact agcViews_acceptBut.isSome hr hnot
  | deess => exact deessViews_acceptBut.isSome hr hnot
  | comp => exact compViews_acceptBut.isSome hr hnot
  | fet => exact fetViews_acceptBut.isSome hr hnot
  | sat => exact satViews_acceptBut.isSome hr hnot
  | pitch => exact pitchViews_acceptBut.isSome hr hnot
  | dly => exact dlyViews_acceptBut.isSome hr hnot
  | rvs => exact rvsViews_acceptBut.isSome hr hnot
  | fdn => exact fdnViews_acceptBut.isSome hr hnot
  | wid => exact widViews_acceptBut.isSome hr hnot
  | os => exact osViews_acceptBut.isSome hr hnot
  | lim => exact limViews_acceptBut.isSome hr hnot
  | xn => exact xnViews_acceptBut.isSome hr hnot
  | pipe => exact (pipeViews_acceptBut s.params).isSome hr hnot

/-- A register that holds a listed value accepts the words of the list. -/
theorem access_coded_iff {U α : Type} {life : Life} {snap : Bool} {views : List (View U)} {u : U} {put : U → State}
    {c r : Nat} {w : Word} {get : U → Word} {of : Word → Option α} {set : U → α → U} {accepted : Prop}
    (h : views[r]? = some (.coded get of set)) (hof : (of w).isSome = true ↔ accepted) :
    ((unitAccess life snap views u put c r).write w).isSome = true ↔ accepted := by
  rw [unitAccess_write_isSome h, ← hof]
  simp [View.coded]

/-- A per-channel register accepts what the register of its copy accepts. -/
theorem access_copy_iff {U S α : Type} {life : Life} {snap : Bool} {views : List (View U)} {u : U} {put : U → State}
    {c r : Nat} {w : Word} {list : U → List S} {putAll : U → List S → U} {fresh : S} {get : S → Word}
    {of : S → Word → Option α} {move : S → α → S} {accepted : Prop}
    (h : views[r]? = some (.copy list putAll fresh get fun t w => (of t w).map (move t)))
    (hof : (of ((list u).getD c fresh) w).isSome = true ↔ accepted) :
    ((unitAccess life snap views u put c r).write w).isSome = true ↔ accepted := by
  rw [unitAccess_write_isSome h, ← hof]
  simp [View.copy]

/-- A cursor accepts the values below the capacity of its copy's memory (rule R71). -/
theorem access_cursor_iff {U S : Type} {life : Life} {snap : Bool} {views : List (View U)} {u : U} {put : U → State}
    {c r : Nat} {w : Word} {list : U → List S} {putAll : U → List S → U} {fresh : S} {get : S → Word}
    {move : S → Word → S} (cap : S → Nat) (h0 : cap fresh = 0)
    (h : views[r]? = some (.copy list putAll fresh get fun t w => (cursorOf (cap t) w).map (move t))) :
    ((unitAccess life snap views u put c r).write w).isSome = true ↔ w.toNat < ((list u).map cap).getD c 0 := by
  rw [← h0, List.getD_map]
  exact access_copy_iff h cursorOf_isSome

theorem enOk_iff {w : Word} : enOk w = true ↔ w.toNat < 2 ^ 12 := decide_eq_true_iff

theorem selOk_iff {w : Word} : selOk w = true ↔ w.toNat < 2 ^ 2 := decide_eq_true_iff

theorem bandMaskOk_iff {p : Params} {w : Word} : bandMaskOk p w = true ↔ (p.neq < 32 → w.toNat < 2 ^ p.neq) := by
  simp only [bandMaskOk, Bool.or_eq_true, Bool.not_eq_true', decide_eq_false_iff_not, decide_eq_true_eq]
  exact Decidable.imp_iff_not_or.symm

theorem mudBandOk_iff {p : Params} {w : Word} : mudBandOk p w = true ↔ w = 0xFFFFFFFF ∨ w.toNat < p.neq := by
  simp only [mudBandOk, Bool.or_eq_true]
  exact or_congr decide_eq_true_iff decide_eq_true_iff

theorem RvsS.comb_cap (t : RvsS) (j : Nat) : (t.combs.map fun b => b.mem.cap).getD j 0 = (t.comb j).mem.cap :=
  List.getD_map _ (⟨0, 0, .unsized⟩ : RvsComb) _

theorem RvsS.ap_cap (t : RvsS) (j : Nat) : (t.aps.map fun a => a.mem.cap).getD j 0 = (t.ap j).mem.cap :=
  List.getD_map _ (⟨0, .unsized⟩ : RvsAp) _

/-- The cursors `CIDX[j]` of RVS (rule R49). -/
theorem rvsViews_combIdx {j : Nat} (hj : j < 8) : rvsViews[15 + j]? = some (rvsCopy (fun t => (t.comb j).idx)
    fun t w => (cursorOf (t.comb j).mem.cap w).map
      fun v => { t with combs := t.combs.set j { t.comb j with idx := v } }) := by
  interval_cases j <;> rfl

/-- The cursors `AIDX[j]` of RVS (rule R49). -/
theorem rvsViews_apIdx {j : Nat} (hj : j < 4) : rvsViews[31 + j]? = some (rvsCopy (fun t => (t.ap j).idx)
    fun t w => (cursorOf (t.ap j).mem.cap w).map
      fun v => { t with aps := t.aps.set j { t.ap j with idx := v } }) := by
  interval_cases j <;> rfl

/-- The registers that do not accept every word are read-only, or are named with what they accept. -/
theorem restricted_cases (u : UnitId) : ∀ r ∈ restricted u, readOnlyReg u r = true ∨
    (u, r) ∈ [(UnitId.bq, 0), (.svf, 0), (.sat, 1), (.gate, 13), (.agc, 4), (.fet, 4), (.wid, 2), (.pitch, 5),
      (.dly, 5), (.lim, 6), (.fdn, 12), (.pipe, 0), (.pipe, 1), (.pipe, 2), (.pipe, 3), (.pipe, 4)] ∨
    (u = .rvs ∧ (15 ≤ r ∧ r ≤ 22 ∨ 31 ≤ r)) := by
  cases u <;> decide

/-- A register that is not read-only is of the unit's numbered file. -/
theorem regCount_of_writable {u : UnitId} {r : Nat} (h : (regClass u r).isSome = true) (hro : readOnlyReg u r = false) :
    r < regCount u := by
  obtain ⟨cls, hc⟩ := Option.isSome_iff_exists.1 h
  by_contra hge
  have hne : regClass u r = none := by
    refine regClass_eq_none (Nat.not_lt.1 hge) ?_ ?_ <;> rintro rfl <;> simp [readOnlyReg] at hro
  simp [hne] at h

/-- Settles O19: the restricted registers by their kind, every other by its view. -/
theorem registersAcceptTheirValuesOnly : Obligations.RegistersAcceptTheirValuesOnly := by
  intro s c i v
  have free {u : UnitId} {r : Nat} (hr : r < regCount u) (hnot : r ∉ restricted u) :=
    s.access_write_isSome c i v hr hnot
  refine ⟨fun u r hsome hro hlist hrvs => ?_, free (by decide) (by decide), free (by decide) (by decide),
    free (by decide) (by decide), ?_, ?_, ?_, ?_, ?_, ?_, ?_, fun _ => ?_, fun _ => ?_, fun _ => ?_, fun _ => ?_,
    fun j hj _ => ?_, fun j hj _ => ?_, ?_, ?_, ?_, ?_, ?_⟩
  · refine free (regCount_of_writable hsome hro) fun hmem => ?_
    rcases restricted_cases u r hmem with h | h | h
    · simp [hro] at h
    · exact hlist h
    · exact hrvs h
  · exact access_coded_iff (views := bqViews) rfl bqTypeOf_isSome
  · exact access_coded_iff (views := svfViews) rfl svfTypeOf_isSome
  · exact access_coded_iff (views := satViews) rfl satTypeOf_isSome
  · exact access_copy_iff (views := gateViews) (of := fun _ => gateStateOf) rfl gateStateOf_isSome
  · exact access_coded_iff (views := agcViews) rfl flagOf_isSome
  · exact access_coded_iff (views := fetViews) rfl flagOf_isSome
  · exact access_coded_iff (views := widViews) rfl flagOf_isSome
  · exact access_cursor_iff (views := pitchViews) (fun t : PitchS => t.mem.cap) rfl rfl
  · exact access_cursor_iff (views := dlyViews) (fun t : DlyS => t.mem.cap) rfl rfl
  · exact access_cursor_iff (views := limViews) (fun t : LimS => t.lb.cap) rfl rfl
  · exact access_cursor_iff (views := fdnViews) (fun t : FdnS => (t.lb.headD .unsized).cap) rfl rfl
  · simp only [RvsS.comb_cap]
    exact access_cursor_iff (views := rvsViews) (fun t : RvsS => (t.comb j).mem.cap) rfl (rvsViews_combIdx hj)
  · simp only [RvsS.ap_cap]
    exact access_cursor_iff (views := rvsViews) (fun t : RvsS => (t.ap j).mem.cap) rfl (rvsViews_apIdx hj)
  · exact access_coded_iff (views := pipeViews s.params) rfl (accept_isSome.trans enOk_iff)
  · exact access_coded_iff (views := pipeViews s.params) rfl (accept_isSome.trans selOk_iff)
  · exact access_coded_iff (views := pipeViews s.params) rfl (accept_isSome.trans bandMaskOk_iff)
  · exact access_coded_iff (views := pipeViews s.params) rfl (accept_isSome.trans bandMaskOk_iff)
  · exact access_coded_iff (views := pipeViews s.params) rfl (accept_isSome.trans mudBandOk_iff)

end Sys2Proof.Machine
end

section
/-! `PIPE.STATUS` (rules R69, R421, R425): how each command and each step moves it. -/

namespace Sys2Proof.Machine

/-- Distinct statuses have distinct status words (rule R421). -/
theorem Raised.word_inj {a b : Raised} (h : a.word = b.word) : a = b := by
  revert h
  cases a <;> cases b <;> decide

/-- No status sets one of the bits that read 0 (rule R69). -/
theorem Raised.bit_and_reserved (r : Raised) : r.bit &&& 0xFFFFFF81 = 0 := by cases r <;> decide

/-- Setting the bit of a status keeps the other bits as they are, the reserved ones among them. -/
theorem or_bit_and_reserved (w : Word) (r : Raised) (h : w &&& 0xFFFFFF81 = 0) : (w ||| r.bit) &&& 0xFFFFFF81 = 0 := by
  rw [BitVec.and_comm, BitVec.and_or_distrib_left, BitVec.and_comm _ w, BitVec.and_comm _ r.bit, h,
    r.bit_and_reserved]; rfl

/-- Clearing bits sets none. -/
theorem and_and_reserved (w v : Word) (h : w &&& 0xFFFFFF81 = 0) : (w &&& v) &&& 0xFFFFFF81 = 0 := by
  rw [BitVec.and_assoc, BitVec.and_comm v, ← BitVec.and_assoc, h]
  exact BitVec.zero_and

/-- The two ends of a command, with what the successful one leaves of PIPE (rules R420, R425). -/
theorem exec_ends (i : Instr) (s : State) :
    (∃ (u : State) (results : List Word), exec i s = .next (u.complete results) ∧ u.port = s.port ∧
      (u.pipe.status = s.pipe.status ∨ ∃ v, i = .wr .pipe 0 0 14 v ∧ u.pipe.status = s.pipe.status &&& ~~~v)) ∨
    ∃ r : Raised, exec i s = .next (s.raise r) := by
  rcases everyCommandCompletesOrRaises i s with ⟨u, results, hu, -, hport, -, hstatus⟩ | ⟨r, hr⟩
  · exact .inl ⟨u, results, hu, hport, hstatus⟩
  · exact .inr ⟨r, by rw [hr, State.raise, State.respond, List.append_nil]; rfl⟩

/-- Everything a command can do to `PIPE.STATUS` and to the words returned (rules R69, R421). -/
theorem exec_status {i : Instr} {s t : State} (h : exec i s = .next t) :
    (∃ r : Raised, t.port.tx = s.port.tx ++ [r.word] ∧ t.pipe.status = s.pipe.status ||| r.bit) ∨
    (∃ results, t.port.tx = s.port.tx ++ results ++ [okWord]) ∧ (t.pipe.status = s.pipe.status ∨
      ∃ v, i = .wr .pipe 0 0 14 v ∧ t.pipe.status = s.pipe.status &&& ~~~v) := by
  rcases exec_ends i s with ⟨u, results, hu, hport, hstatus⟩ | ⟨r, hr⟩
  · cases hu.symm.trans h
    exact .inr ⟨⟨results, by simp [hport]⟩, hstatus⟩
  · cases hr.symm.trans h
    exact .inl ⟨r, by simp, rfl⟩

/-- A command keeps the reserved bits of `PIPE.STATUS` 0. -/
theorem exec_status_reserved {i : Instr} {s t : State} (hs : s.pipe.status &&& 0xFFFFFF81 = 0)
    (h : exec i s = .next t) : t.pipe.status &&& 0xFFFFFF81 = 0 := by
  rcases exec_status h with ⟨r, -, hr⟩ | ⟨-, hsame | ⟨v, -, hv⟩⟩
  · rw [hr]; exact or_bit_and_reserved _ r hs
  · rw [hsame]; exact hs
  · rw [hv]; exact and_and_reserved _ _ hs

/-- A step keeps them too: an illegal word raises `Illegal`, a wait changes nothing. -/
theorem step_status_reserved {s t : State} (hs : s.pipe.status &&& 0xFFFFFF81 = 0) (h : step s = .next t) :
    t.pipe.status &&& 0xFFFFFF81 = 0 := by
  rcases step_eq_next h with rfl | ⟨_, n, -, rfl⟩ | ⟨i, rest, -, hi⟩
  · exact hs
  · exact or_bit_and_reserved _ .illegal hs
  · exact exec_status_reserved (s := s.withRx rest) hs hi

/-- Settles O8, from what every command does to `PIPE.STATUS`. -/
theorem statusRegisterIsSticky : Obligations.StatusRegisterIsSticky := by
  refine ⟨fun r => by cases r <;> decide, fun i s t r h htx => ?_, fun s t => step_status_reserved, execWr_status,
    fun _ => rfl, fun _ => rfl, fun i s t results hi h => ?_⟩
  · replace htx : t.port.tx = s.port.tx ++ [r.word] := htx
    rcases exec_status h with ⟨r', htx', hr'⟩ | ⟨⟨results, htx'⟩, -⟩
    · obtain rfl : r' = r := Raised.word_inj (by simpa using htx'.symm.trans htx)
      exact hr'
    · rw [htx', List.append_assoc, List.append_right_inj] at htx
      have hlast := congrArg List.getLast? htx
      exact absurd (by simpa using hlast.symm) r.word_ne_ok
  · rcases exec_ends i s with ⟨u, results', hu, -, hstatus⟩ | ⟨r, hr⟩
    · have hpipe := congrArg State.pipe (Host.Outcome.next.inj (hu.symm.trans h))
      simp only [State.complete_pipe] at hpipe
      rw [← hpipe]
      exact hstatus.resolve_right fun ⟨v, hv, _⟩ => hi v hv
    · exact absurd (Host.Outcome.next.inj (h.symm.trans hr)) (State.complete_ne_raise s t results r)

end Sys2Proof.Machine
end

section
/-! What an operation of PIPE keeps, for any relation that the operations of the units respect: the traversal of the
frame and of the block commands (rules R385 to R394), once for every such relation. -/

namespace Sys2Proof.Machine

/-! ### Computations by what their outcomes satisfy -/

/-- Every outcome of a computation that succeeds satisfies `Q`. -/
def Gives {α : Type} (Q : α → Prop) (x : Except Raised α) : Prop := ∀ a, x = .ok a → Q a

theorem Gives.ok {α : Type} {Q : α → Prop} {a : α} (h : Q a) : Gives Q (.ok a) := by
  rintro _ ⟨⟩
  exact h

theorem Gives.bind {α β : Type} {Q : α → Prop} {S : β → Prop} {x : Except Raised α} {f : α → Except Raised β}
    (hx : Gives Q x) (hf : ∀ a, Q a → Gives S (f a)) : Gives S (x >>= f) := by
  intro b h
  obtain ⟨a, ha, hb⟩ := Except.bind_eq_ok'.1 h
  exact hf a (hx a ha) b hb

/-- Sequencing behind a computation whose outcome does not matter: a check. -/
theorem Gives.after {α β : Type} {S : β → Prop} {x : Except Raised α} {f : α → Except Raised β}
    (hf : ∀ a, Gives S (f a)) : Gives S (x >>= f) :=
  Gives.bind (Q := fun _ => True) (fun _ _ => trivial) fun a _ => hf a

theorem Gives.ite {α : Type} {Q : α → Prop} {P : Prop} [Decidable P] {x y : Except Raised α} (hx : Gives Q x)
    (hy : Gives Q y) : Gives Q (if P then x else y) := by
  split
  · exact hx
  · exact hy

/-- The state that `π` finds in an outcome of the computation is one that `R` leads to from `s`. -/
def Leads (R : State → State → Prop) {α : Type} (π : α → State) (s : State) (x : Except Raised α) : Prop :=
  Gives (fun a => R s (π a)) x

/-- What follows changes no more of the state. -/
theorem Leads.keep {R : State → State → Prop} {α β : Type} {π : α → State} {ρ : β → State} {s : State}
    {x : Except Raised α} {f : α → β} (hx : Leads R π s x) (hf : ∀ a, ρ (f a) = π a) :
    Leads R ρ s (x >>= fun a => pure (f a)) :=
  Gives.bind hx fun a ha => .ok (by rwa [hf])

/-! ### Relations that the operations of the units respect -/

/-- A reflexive and transitive relation between states that leads to wherever an operation that PIPE performs on a unit
leads, and that PIPE's latch, latency and block flag do not disturb. -/
structure Respected (R : State → State → Prop) : Prop where
  refl : ∀ s, R s s
  trans : ∀ {s t u}, R s t → R t u → R s u
  gateProc : ∀ s c x, Leads R Prod.fst s (State.gateProc s c x)
  agcProc : ∀ s c x, Leads R Prod.fst s (State.agcProc s c x)
  pitchProc : ∀ s c x, Leads R Prod.fst s (State.pitchProc s c x)
  deessProc : ∀ s c x, Leads R Prod.fst s (State.deessProc s c x)
  bqProc : ∀ s c b x, Leads R Prod.fst s (State.bqProc s c b x)
  svfProc : ∀ s c b x, Leads R Prod.fst s (State.svfProc s c b x)
  compProc : ∀ s c x, Leads R Prod.fst s (State.compProc s c x)
  fetProc : ∀ s c x, Leads R Prod.fst s (State.fetProc s c x)
  satProc : ∀ s c x, Leads R Prod.fst s (State.satProc s c x)
  osUp : ∀ s c x, Leads R Prod.fst s (State.osUp s c x)
  osDown : ∀ s c u0 u1 u2 u3, Leads R Prod.fst s (State.osDown s c u0 u1 u2 u3)
  dlyProc : ∀ s c x, Leads R Prod.fst s (State.dlyProc s c x)
  rvsProc : ∀ s c x, Leads R Prod.fst s (State.rvsProc s c x)
  fdnProc : ∀ s c x, Leads R Prod.fst s (State.fdnProc s c x)
  widProc : ∀ s i l r, Leads R Prod.fst s (State.widProc s i l r)
  limProc : ∀ s c x, Leads R Prod.fst s (State.limProc s c x)
  xnAcc : ∀ s c x, Leads R id s (State.xnAcc s c x)
  xnAnalyze : ∀ s, Leads R id s (State.xnAnalyze s)
  agcExt : ∀ s mode v, Leads R id s (State.agcExt s mode v)
  fetThoff : ∀ s v, Leads R id s (State.fetThoff s v)
  satDscale : ∀ s v, Leads R id s (State.satDscale s v)
  bqGoff : ∀ s i v, Leads R id s (State.bqGoff s i v)
  svfGoff : ∀ s i v, Leads R id s (State.svfGoff s i v)
  pipe : ∀ (s : State) L latency inBlock,
    R s { s with pipe := { s.pipe with L := L, latency := latency, inBlock := inBlock } }

namespace Respected
variable {R : State → State → Prop} (h : Respected R)
include h

/-- Sequencing: the rest runs at the state that the first part leaves. -/
theorem seq {α β : Type} {π : α → State} {ρ : β → State} {s : State} {x : Except Raised α}
    {f : α → Except Raised β} (hx : Leads R π s x) (hf : ∀ a, Leads R ρ (π a) (f a)) : Leads R ρ s (x >>= f) :=
  Gives.bind hx fun a ha b hb => h.trans ha (hf a b hb)

/-- A computation that ends at the state where it began. -/
theorem stay {α : Type} {π : α → State} {a : α} : Leads R π (π a) (.ok a) := .ok (h.refl _)

/-- A stage that is skipped changes nothing (rule R390). -/
theorem stage {on : Bool} {f : State → Nat → F32 → Except Raised (State × F32)} {s : State} {c : Nat} {x : F32}
    (hf : Leads R Prod.fst s (f s c x)) : Leads R Prod.fst s (Machine.stage on f s c x) :=
  .ite hf (.ok (h.refl s))

theorem stageAll {on : Bool} {f : State → List F32 → Except Raised (State × List F32)} {s : State} {xs : List F32}
    (hf : Leads R Prod.fst s (f s xs)) : Leads R Prod.fst s (Machine.stageAll on f s xs) :=
  .ite hf (.ok (h.refl s))

/-- A pass over the channels leads where its channels lead (rule R389). -/
theorem channels {f : State → Nat → F32 → Except Raised (State × F32)} (hf : ∀ s c x, Leads R Prod.fst s (f s c x))
    (s : State) (c : Nat) (xs : List F32) : Leads R Prod.fst s (forChannels f s c xs) := by
  rintro ⟨t, ys⟩ ht
  have one : ∀ u c x v y, R s u → f u c x = .ok (v, y) → R s v := fun u c x v y hu hv => h.trans hu (hf u c x _ hv)
  exact (forChannels_keeps (P := R s) one (h.refl s) ht).1

theorem eqBand (b : Nat) (s : State) (c : Nat) (x : F32) : Leads R Prod.fst s (State.eqBand b s c x) :=
  h.stage (.ite (h.svfProc s c b x) (h.bqProc s c b x))

theorem eqBands (bs : List Nat) (s : State) (c : Nat) (x : F32) : Leads R Prod.fst s (Machine.eqBands bs s c x) := by
  induction bs generalizing s x with
  | nil => exact .ok (h.refl s)
  | cons b bs ih => exact h.seq (h.eqBand b s c x) fun ⟨t, y⟩ => ih t y

theorem compressorProc (s : State) (c : Nat) (x : F32) : Leads R Prod.fst s (s.compressorProc c x) :=
  .ite (h.fetProc s c x) (h.compProc s c x)

theorem reverbProc (s : State) (c : Nat) (x : F32) : Leads R Prod.fst s (s.reverbProc c x) :=
  .ite (h.fdnProc s c x) (h.rvsProc s c x)

/-- Stages 1 to 7, in order (rule R389). -/
theorem bracket (s : State) (c : Nat) (x : F32) : Leads R Prod.fst s (s.bracket c x) :=
  h.seq (h.stage (h.gateProc s c x)) fun ⟨s, x⟩ =>
  h.seq (h.stage (h.agcProc s c x)) fun ⟨s, x⟩ =>
  h.seq (h.stage (h.pitchProc s c x)) fun ⟨s, x⟩ =>
  h.seq (h.stage (h.deessProc s c x)) fun ⟨s, x⟩ =>
  h.seq (h.stage (h.eqBands _ s c x)) fun ⟨s, x⟩ =>
  h.seq (h.stage (h.compressorProc s c x)) fun ⟨s, x⟩ =>
  h.stage (h.satProc s c x)

theorem oversampled (s : State) (c : Nat) (x : F32) : Leads R Prod.fst s (s.oversampled c x) :=
  h.seq (h.osUp s c x) fun ⟨s, u0, u1, u2, u3⟩ =>
  h.seq (h.bracket s c u0) fun ⟨s, u0⟩ =>
  h.seq (h.bracket s c u1) fun ⟨s, u1⟩ =>
  h.seq (h.bracket s c u2) fun ⟨s, u2⟩ =>
  h.seq (h.bracket s c u3) fun ⟨s, u3⟩ =>
  h.osDown s c u0 u1 u2 u3

/-- Bracket or oversampled bracket, then delay, then reverb (rule R389). -/
theorem channelProc (s : State) (c : Nat) (x : F32) : Leads R Prod.fst s (s.channelProc c x) := by
  have behind (s : State) (x : F32) : Leads R Prod.fst s (do
      let (s, x) ← Machine.stage (s.pipe.L.enabled .dly) State.dlyProc s c x
      Machine.stage (s.pipe.L.enabled .reverb) State.reverbProc s c x) :=
    h.seq (h.stage (h.dlyProc s c x)) fun ⟨s, x⟩ => h.stage (h.reverbProc s c x)
  exact .ite (h.seq (h.oversampled s c x) fun ⟨s, x⟩ => behind s x) (h.seq (h.bracket s c x) fun ⟨s, x⟩ => behind s x)

theorem xnTap (s : State) (c : Nat) (x : F32) : Leads R Prod.fst s (s.xnTap c x) :=
  Leads.keep (h.xnAcc s c x) fun _ => rfl

theorem widPairs (s : State) (i : Nat) (xs : List F32) : Leads R Prod.fst s (Machine.widPairs s i xs) := by
  induction s, i, xs using Machine.widPairs.induct with
  | case1 s i l r xs ih => exact h.seq (h.widProc s i l r) fun ⟨t, l', r'⟩ => Leads.keep (ih t) fun _ => rfl
  | case2 s i => exact .ok (h.refl s)
  | case3 s i x => exact .ok (h.refl s)

/-- A frame: supervisor tap, channels, widener, limiter (rule R389). -/
theorem pipeFrame (s : State) (xs : List F32) : Leads R Prod.fst s (s.pipeFrame xs) :=
  .after fun _ => .after fun _ =>
  h.seq (h.stageAll (h.channels h.xnTap s 0 xs)) fun ⟨s, xs⟩ =>
  h.seq (h.channels h.channelProc s 0 xs) fun ⟨s, xs⟩ =>
  h.seq (h.stageAll (h.widPairs s 0 xs)) fun ⟨s, xs⟩ =>
  h.stageAll (h.channels h.limProc s 0 xs)

theorem goffBand (s : State) (b : Word) (v : F32) : Leads R id s (s.goffBand b v) :=
  .ite (.ok (h.refl s)) (h.seq (h.bqGoff s b.toNat v) fun t => h.svfGoff t b.toNat v)

/-- The four consumers of the supervisor (rule R391). -/
theorem driveConsumers (s : State) (mode : Bool) (alGainDb thOffDb scale cutDb : F32) :
    Leads R id s (s.driveConsumers mode alGainDb thOffDb scale cutDb) :=
  h.seq (h.agcExt s mode alGainDb) fun s =>
  h.seq (h.fetThoff s thOffDb) fun s =>
  h.seq (h.satDscale s scale) fun s =>
  h.goffBand s s.pipe.L.eqMudBand cutDb

theorem releaseBand (s : State) (old : Word) : Leads R id s (s.releaseBand old) :=
  .ite (.ok (h.refl s)) (h.goffBand s old F32.zero)

theorem beginConsumers (s : State) (was : Bool) : Leads R id s (s.beginConsumers was) :=
  .ite (h.driveConsumers s _ _ _ _ _) (.ite (h.driveConsumers s _ _ _ _ _) (.ok (h.refl s)))

/-- `PIPE.BEGIN`: the configuration latched, the consumers driven, the block entered (rule R393). -/
theorem pipeBegin (s : State) : Leads R id s s.pipeBegin :=
  .after fun _ => .after fun _ => .after fun _ =>
  Gives.bind (h.releaseBand s.latch s.pipe.L.eqMudBand) fun t ht =>
  Gives.bind (h.beginConsumers t (s.pipe.L.enabled .xn)) fun u hu =>
  .ok (h.trans (h.pipe s s.pipe.P s.pipe.latency s.pipe.inBlock) (h.trans ht (h.trans hu (h.pipe u u.pipe.L _ true))))

/-- `PIPE.END`: the block analysed while the supervisor is on, then left (rule R394). -/
theorem pipeEnd (s : State) : Leads R id s s.pipeEnd := by
  have leave (t : State) : Leads R id t (pure { t with pipe := { t.pipe with inBlock := false } }) :=
    .ok (h.pipe t t.pipe.L t.pipe.latency false)
  exact .after fun _ => .after fun _ =>
    .ite (h.seq (h.seq (h.xnAnalyze s) fun t => h.driveConsumers t _ _ _ _ _) leave)
      (h.seq (h.stay (π := id) (a := s)) leave)

end Respected

end Sys2Proof.Machine
end

section
/-! What no command but RST of PIPE and DEINIT takes from a unit: its lifecycle flags and the number of its copies
(rules R31 to R36, R49, R50, R52), operation by operation. -/

namespace Sys2Proof.Machine

/-! ### The copies of a unit -/

def Env.fits (p : Params) (u : Env) : Prop := u.envelope.length = p.nch
def Bq.fits (p : Params) (u : Bq) : Prop := u.taps.length = p.nch
def Svf.fits (p : Params) (u : Svf) : Prop := u.ch.length = p.nch
def Gate.fits (p : Params) (u : Gate) : Prop := u.ch.length = p.nch
def Agc.fits (p : Params) (u : Agc) : Prop := u.ch.length = p.nch
def Deess.fits (p : Params) (u : Deess) : Prop := u.ch.length = p.nch
def Comp.fits (p : Params) (u : Comp) : Prop := u.gain.length = p.nch
def Fet.fits (p : Params) (u : Fet) : Prop := u.envelope.length = p.nch
def Sat.fits (p : Params) (u : Sat) : Prop := u.ch.length = p.nch
def Pitch.fits (p : Params) (u : Pitch) : Prop := u.ch.length = p.nch
def Dly.fits (p : Params) (u : Dly) : Prop := u.ch.length = p.nch
def Rvs.fits (p : Params) (u : Rvs) : Prop :=
  u.ch.length = p.nch ∧ u.clen.length = 8 ∧ u.alen.length = 4 ∧ ∀ c ∈ u.ch, c.combs.length = 8 ∧ c.aps.length = 4
def Fdn.fits (p : Params) (u : Fdn) : Prop :=
  u.ch.length = p.nch ∧ u.C.len.length = 8 ∧ ∀ c ∈ u.ch, c.lp.length = 8 ∧ c.lb.length = 8
def Wid.fits (p : Params) (u : Wid) : Prop := u.pairs.length = p.nch / 2
def Os.fits (p : Params) (u : Os) : Prop :=
  u.ch.length = p.nch ∧ ∀ c ∈ u.ch, c.uph.length = 16 ∧ c.dnh.length = 64
def Lim.fits (p : Params) (u : Lim) : Prop := u.ch.length = p.nch
def Xn.fits (p : Params) (u : Xn) : Prop := u.lps.length = p.nch

/-- The number of instances and copies, unit by unit. -/
theorem State.copiesOk_iff {s : State} : s.copiesOk ↔
    s.env.fits s.params ∧ (s.bq.length = s.params.neq ∧ ∀ u ∈ s.bq, u.fits s.params) ∧
    (s.svf.length = s.params.neq ∧ ∀ u ∈ s.svf, u.fits s.params) ∧ s.gate.fits s.params ∧ s.agc.fits s.params ∧
    s.deess.fits s.params ∧ s.comp.fits s.params ∧ s.fet.fits s.params ∧ s.sat.fits s.params ∧
    s.pitch.fits s.params ∧ s.dly.fits s.params ∧ s.rvs.fits s.params ∧ s.fdn.fits s.params ∧
    s.wid.fits s.params ∧ s.os.fits s.params ∧ s.lim.fits s.params ∧ s.xn.fits s.params := by
  simp only [State.copiesOk, Env.fits, Bq.fits, Svf.fits, Gate.fits, Agc.fits, Deess.fits, Comp.fits, Fet.fits,
    Sat.fits, Pitch.fits, Dly.fits, Rvs.fits, Fdn.fits, Wid.fits, Os.fits, Lim.fits, Xn.fits, and_assoc]

/-! ### How a unit may move -/

/-- No flag that is set in `l` is clear in `m`. -/
def Life.within (l m : Life) : Prop :=
  (l.active = true → m.active = true) ∧ (l.configured = true → m.configured = true)

theorem Life.within.refl (l : Life) : l.within l := ⟨id, id⟩

theorem Life.within.trans {l m n : Life} (h : l.within m) (k : m.within n) : l.within n :=
  ⟨k.1 ∘ h.1, k.2 ∘ h.2⟩

/-- A unit keeps its flags, and its copies where it has them all. -/
structure Advances {U : Type} (life : U → Life) (fits : U → Prop) (u v : U) : Prop where
  within : (life u).within (life v)
  fits : fits u → fits v

section
variable {U : Type} {life : U → Life} {fits : U → Prop}

theorem Advances.refl (u : U) : Advances life fits u u := ⟨.refl _, id⟩

theorem Advances.trans {u v w : U} (h : Advances life fits u v) (k : Advances life fits v w) :
    Advances life fits u w := ⟨h.within.trans k.within, k.fits ∘ h.fits⟩

/-- What leaves the lifecycle alone. -/
theorem Advances.of_life {u v : U} (hl : life v = life u) (hf : fits u → fits v) : Advances life fits u v :=
  ⟨by rw [hl]; exact .refl _, hf⟩

end

/-! ### Copies in a list -/

/-- What every element of a list has, and a function keeps, is still so with the function applied to one element. -/
theorem forall_mem_set {α : Type} {P : α → Prop} {l : List α} {c : Nat} {d : α} {f : α → α}
    (h : ∀ a ∈ l, P a) (hf : ∀ a, P a → P (f a)) : ∀ a ∈ l.set c (f (l.getD c d)), P a := by
  intro a ha
  by_cases hc : c < l.length
  · rcases List.mem_or_eq_of_mem_set ha with hm | rfl
    · exact h a hm
    · rw [List.getD_eq_getElem _ _ hc]
      exact hf _ (h _ (List.getElem_mem hc))
  · rw [List.set_eq_of_length_le (Nat.not_lt.1 hc)] at ha
    exact h a ha

theorem combBank_length (p : Ctx) (P : RvsP) (x : F32) (lens : List Word) (cs : List RvsComb) (acc : F32) :
    (combBank p P x lens cs acc).1.length = cs.length := by
  induction lens, cs, acc using combBank.induct p P x with
  | case1 len lens c cs acc c' o hc rest sum hr ih => simp [combBank, hc, hr, ← ih]
  | case2 lens cs acc h => cases lens <;> cases cs <;> simp_all [combBank]

theorem allpassChain_length (p : Ctx) (n : Nat) (lens : List Word) (as : List RvsAp) (v : F32) :
    (allpassChain p n lens as v).1.length = as.length := by
  induction n, lens, as, v using allpassChain.induct p with
  | case1 n len lens a as v a' v' ha rest y hr ih => simp [allpassChain, ha, hr, ← ih]
  | case2 n lens as v h => cases n <;> cases lens <;> cases as <;> simp_all [allpassChain]

theorem rvsStep_lengths (p : Ctx) (P : RvsP) (clen alen : List Word) (s : RvsS) (x : F32) :
    (rvsStep p P clen alen s x).1.combs.length = s.combs.length ∧
    (rvsStep p P clen alen s x).1.aps.length = s.aps.length :=
  ⟨combBank_length .., allpassChain_length ..⟩

/-- Eight lines and stores stay eight (rule R325). -/
theorem fdnStep_lengths (p : Ctx) (P : FdnP) (C : FdnC) {s : FdnS} (x : F32)
    (h : s.lp.length = 8 ∧ s.lb.length = 8) :
    (fdnStep p P C s x).1.lp.length = 8 ∧ (fdnStep p P C s x).1.lb.length = 8 := by
  simp [fdnStep, fdnDamp, hadamard8, butterfly, h.1, h.2]

/-! ### RST: the flags, and as many copies as the build has -/

theorem Env.rst_advances (p : Ctx) (u : Env) (fs : F32) :
    Gives (fun v => Advances Env.life (Env.fits p.toParams) u v ∧ v.life.active = true) (u.rst p fs) :=
  .after fun _ => .ok ⟨⟨by simp [Life.within], fun h => by simp [Env.fits]⟩, by simp⟩

theorem Gate.rst_advances (p : Ctx) (u : Gate) (fs : F32) :
    Gives (fun v => Advances Gate.life (Gate.fits p.toParams) u v ∧ v.life.active = true) (u.rst p fs) :=
  .after fun _ => .ok ⟨⟨by simp [Life.within], fun h => by simp [Gate.fits]⟩, by simp⟩

theorem Agc.rst_advances (p : Ctx) (u : Agc) (fs : F32) :
    Gives (fun v => Advances Agc.life (Agc.fits p.toParams) u v ∧ v.life.active = true) (u.rst p fs) :=
  .after fun _ => .ok ⟨⟨by simp [Life.within], fun h => by simp [Agc.fits]⟩, by simp⟩

theorem Deess.rst_advances (p : Ctx) (u : Deess) (fs : F32) :
    Gives (fun v => Advances Deess.life (Deess.fits p.toParams) u v ∧ v.life.active = true) (u.rst p fs) :=
  .after fun _ => .ok ⟨⟨by simp [Life.within], fun h => by simp [Deess.fits]⟩, by simp⟩

theorem Comp.rst_advances (p : Ctx) (u : Comp) (fs : F32) :
    Gives (fun v => Advances Comp.life (Comp.fits p.toParams) u v ∧ v.life.active = true) (u.rst p fs) :=
  .after fun _ => .ok ⟨⟨by simp [Life.within], fun h => by simp [Comp.fits]⟩, by simp⟩

theorem Fet.rst_advances (p : Ctx) (u : Fet) (fs : F32) :
    Gives (fun v => Advances Fet.life (Fet.fits p.toParams) u v ∧ v.life.active = true) (u.rst p fs) :=
  .after fun _ => .ok ⟨⟨by simp [Life.within], fun h => by simp [Fet.fits]⟩, by simp⟩

theorem Sat.rst_advances (p : Ctx) (u : Sat) (fs : F32) :
    Gives (fun v => Advances Sat.life (Sat.fits p.toParams) u v ∧ v.life.active = true) (u.rst p fs) :=
  .after fun _ => .ok ⟨⟨by simp [Life.within], fun h => by simp [Sat.fits]⟩, by simp⟩

theorem Pitch.rst_advances (p : Ctx) (u : Pitch) (fs : F32) :
    Gives (fun v => Advances Pitch.life (Pitch.fits p.toParams) u v ∧ v.life.active = true) (u.rst p fs) :=
  .after fun _ => .ok ⟨⟨by simp [Life.within], fun h => by simp [Pitch.fits]⟩, by simp⟩

theorem Wid.rst_advances (p : Ctx) (u : Wid) (fs : F32) :
    Gives (fun v => Advances Wid.life (Wid.fits p.toParams) u v ∧ v.life.active = true) (u.rst p fs) :=
  .after fun _ => .ok ⟨⟨by simp [Life.within], fun h => by simp [Wid.fits]⟩, by simp⟩

theorem Lim.rst_advances (p : Ctx) (u : Lim) (fs : F32) :
    Gives (fun v => Advances Lim.life (Lim.fits p.toParams) u v ∧ v.life.active = true) (u.rst p fs) :=
  .after fun _ => .ok ⟨⟨by simp [Life.within], fun h => by simp [Lim.fits]⟩, by simp⟩

theorem Xn.rst_advances (p : Ctx) (u : Xn) (fs : F32) :
    Gives (fun v => Advances Xn.life (Xn.fits p.toParams) u v ∧ v.life.active = true) (u.rst p fs) :=
  .after fun _ => .ok ⟨⟨by simp [Life.within], fun h => by simp [Xn.fits]⟩, by simp⟩

theorem Rvs.rst_advances (p : Ctx) (u : Rvs) (fs : F32) :
    Gives (fun v => Advances Rvs.life (Rvs.fits p.toParams) u v ∧ v.life.active = true) (u.rst p fs) := by
  refine .after fun _ => .ok ⟨⟨by simp [Life.within], fun _ => ⟨by simp, rfl, rfl, fun c hc => ?_⟩⟩, rfl⟩
  rw [mem_perChannel hc]
  exact ⟨rfl, rfl⟩

/-- Computed or not, there are eight lengths (rule R323). -/
theorem Fdn.derive_fits {p : Ctx} {u : Fdn} (h : u.fits p.toParams) : (u.derive p).fits p.toParams := by
  unfold Fdn.derive
  split
  · exact ⟨h.1, rfl, h.2.2⟩
  · exact h

theorem Fdn.rst_advances (p : Ctx) (u : Fdn) (fs : F32) :
    Gives (fun v => Advances Fdn.life (Fdn.fits p.toParams) u v ∧ v.life.active = true) (u.rst p fs) := by
  refine .after fun _ => .ok ⟨⟨by simp [Life.within], fun h => Fdn.derive_fits ⟨by simp, h.2.1, fun c hc => ?_⟩⟩,
    by simp⟩
  rw [mem_perChannel hc]
  exact ⟨rfl, rfl⟩

theorem Dly.rst_advances (p : Ctx) (u : Dly) (fs : F32) :
    Gives (fun v => Advances Dly.life (Dly.fits p.toParams) u v ∧ v.life.active = true) (u.rst p fs) := by
  refine .after fun _ => .ok ?_
  simp only [Dly.restart, Dly.jump]
  split <;> exact ⟨⟨by simp [Life.within], fun _ => by simp [Dly.fits]⟩, by simp⟩

theorem Os.rst_advances (p : Ctx) (u : Os) :
    Advances Os.life (Os.fits p.toParams) u (u.rst p) ∧ (u.rst p).life.active = true := by
  refine ⟨⟨by simp [Os.rst, Life.within], fun _ => ⟨by simp [Os.rst], fun c hc => ?_⟩⟩, rfl⟩
  rw [mem_perChannel hc]
  exact ⟨rfl, rfl⟩

theorem Bq.reset_advances (p : Ctx) (fs : F32) (u : Bq) : Advances Bq.life (Bq.fits p.toParams) u (u.reset p fs) :=
  ⟨by simp [Bq.reset, Life.within], fun _ => by simp [Bq.reset, Bq.fits]⟩

theorem Svf.reset_advances (p : Ctx) (fs : F32) (u : Svf) :
    Advances Svf.life (Svf.fits p.toParams) u (u.reset p fs) :=
  ⟨by simp [Svf.reset, Life.within], fun _ => by simp [Svf.reset, Svf.fits]⟩

/-! ### CFG: `CONFIGURED`, and no copy touched -/

theorem Env.cfg_advances (p : Ctx) (u : Env) (P : EnvP) :
    Advances Env.life (Env.fits p.toParams) u (u.cfg p P) :=
  ⟨by simp [Env.cfg, Life.within], fun h => by simpa [Env.cfg, Env.fits] using h⟩

theorem Bq.cfg_advances (p : Ctx) (u : Bq) (P : BqP) :
    Advances Bq.life (Bq.fits p.toParams) u (u.cfg p P) :=
  ⟨by simp [Bq.cfg, Life.within], fun h => by simpa [Bq.cfg, Bq.fits] using h⟩

theorem Svf.cfg_advances (p : Ctx) (u : Svf) (P : SvfP) :
    Advances Svf.life (Svf.fits p.toParams) u (u.cfg p P) :=
  ⟨by simp [Svf.cfg, Life.within], fun h => by simpa [Svf.cfg, Svf.fits] using h⟩

theorem Gate.cfg_advances (p : Ctx) (u : Gate) (P : GateP) :
    Advances Gate.life (Gate.fits p.toParams) u (u.cfg p P) :=
  ⟨by simp [Gate.cfg, Life.within], fun h => by simpa [Gate.cfg, Gate.fits] using h⟩

theorem Agc.cfg_advances (p : Ctx) (u : Agc) (P : AgcP) :
    Advances Agc.life (Agc.fits p.toParams) u (u.cfg p P) :=
  ⟨by simp [Agc.cfg, Life.within], fun h => by simpa [Agc.cfg, Agc.fits] using h⟩

theorem Deess.cfg_advances (p : Ctx) (u : Deess) (P : DeessP) :
    Advances Deess.life (Deess.fits p.toParams) u (u.cfg p P) :=
  ⟨by simp [Deess.cfg, Life.within], fun h => by simpa [Deess.cfg, Deess.fits] using h⟩

theorem Comp.cfg_advances (p : Ctx) (u : Comp) (P : CompP) :
    Advances Comp.life (Comp.fits p.toParams) u (u.cfg p P) :=
  ⟨by simp [Comp.cfg, Life.within], fun h => by simpa [Comp.cfg, Comp.fits] using h⟩

theorem Fet.cfg_advances (p : Ctx) (u : Fet) (P : FetP) :
    Advances Fet.life (Fet.fits p.toParams) u (u.cfg p P) :=
  ⟨by simp [Fet.cfg, Life.within], fun h => by simpa [Fet.cfg, Fet.fits] using h⟩

theorem Pitch.cfg_advances (p : Ctx) (u : Pitch) (P : PitchP) :
    Advances Pitch.life (Pitch.fits p.toParams) u (u.cfg p P) :=
  ⟨by simp [Pitch.cfg, Life.within], fun h => by simpa [Pitch.cfg, Pitch.fits] using h⟩

theorem Wid.cfg_advances (p : Ctx) (u : Wid) (P : WidP) :
    Advances Wid.life (Wid.fits p.toParams) u (u.cfg p P) :=
  ⟨by simp [Wid.cfg, Life.within], fun h => by simpa [Wid.cfg, Wid.fits] using h⟩

theorem Lim.cfg_advances (p : Ctx) (u : Lim) (P : LimP) :
    Advances Lim.life (Lim.fits p.toParams) u (u.cfg p P) :=
  ⟨by simp [Lim.cfg, Life.within], fun h => by simpa [Lim.cfg, Lim.fits] using h⟩

theorem Xn.cfg_advances (p : Ctx) (u : Xn) (P : XnP) :
    Advances Xn.life (Xn.fits p.toParams) u (u.cfg p P) :=
  ⟨by simp [Xn.cfg, Life.within], fun h => by simpa [Xn.cfg, Xn.fits] using h⟩

theorem Sat.cfg_advances (p : Params) (u : Sat) (P : SatP) : Advances Sat.life (Sat.fits p) u (u.cfg P) :=
  ⟨⟨id, fun _ => rfl⟩, id⟩

theorem Rvs.cfg_advances (p : Params) (u : Rvs) (P : RvsP) : Advances Rvs.life (Rvs.fits p) u (u.cfg P) :=
  ⟨⟨id, fun _ => rfl⟩, id⟩

theorem Fdn.cfg_advances (p : Ctx) (u : Fdn) (P : FdnP) : Advances Fdn.life (Fdn.fits p.toParams) u (u.cfg p P) :=
  ⟨by simp [Fdn.cfg, Life.within], fun h => Fdn.derive_fits h⟩

theorem Dly.cfg_advances (p : Ctx) (u : Dly) (P : DlyP) : Advances Dly.life (Dly.fits p.toParams) u (u.cfg p P) := by
  simp only [Dly.cfg, Dly.jump]
  split <;> exact ⟨by simp [Life.within], fun h => by simpa [Dly.fits] using h⟩

/-! ### PROC, ACC and ANALYZE: one copy rewritten -/

theorem Env.proc_advances (p : Ctx) (u : Env) (c : Nat) (x : F32) :
    Gives (fun r => Advances Env.life (Env.fits p.toParams) u r.1) (u.proc p c x) :=
  .after fun _ => .ok (.of_life rfl fun h => (List.length_set ..).trans h)

theorem Bq.proc_advances (p : Ctx) (u : Bq) (c : Nat) (x : F32) :
    Gives (fun r => Advances Bq.life (Bq.fits p.toParams) u r.1) (u.proc p c x) :=
  .after fun _ => .ok (.of_life rfl fun h => (List.length_set ..).trans h)

theorem Svf.proc_advances (p : Ctx) (u : Svf) (c : Nat) (x : F32) :
    Gives (fun r => Advances Svf.life (Svf.fits p.toParams) u r.1) (u.proc p c x) :=
  .after fun _ => .ok (.of_life rfl fun h => (List.length_set ..).trans h)

theorem Gate.proc_advances (p : Ctx) (u : Gate) (c : Nat) (x : F32) :
    Gives (fun r => Advances Gate.life (Gate.fits p.toParams) u r.1) (u.proc p c x) :=
  .after fun _ => .ok (.of_life rfl fun h => (List.length_set ..).trans h)

theorem Agc.proc_advances (p : Ctx) (u : Agc) (c : Nat) (x : F32) :
    Gives (fun r => Advances Agc.life (Agc.fits p.toParams) u r.1) (u.proc p c x) :=
  .after fun _ => .ok (.of_life rfl fun h => (List.length_set ..).trans h)

theorem Deess.proc_advances (p : Ctx) (u : Deess) (c : Nat) (x : F32) :
    Gives (fun r => Advances Deess.life (Deess.fits p.toParams) u r.1) (u.proc p c x) :=
  .after fun _ => .ok (.of_life rfl fun h => (List.length_set ..).trans h)

theorem Comp.proc_advances (p : Ctx) (u : Comp) (c : Nat) (x : F32) :
    Gives (fun r => Advances Comp.life (Comp.fits p.toParams) u r.1) (u.proc p c x) :=
  .after fun _ => .ok (.of_life rfl fun h => (List.length_set ..).trans h)

theorem Fet.proc_advances (p : Ctx) (u : Fet) (c : Nat) (x : F32) :
    Gives (fun r => Advances Fet.life (Fet.fits p.toParams) u r.1) (u.proc p c x) :=
  .after fun _ => .ok (.of_life rfl fun h => (List.length_set ..).trans h)

theorem Sat.proc_advances (p : Ctx) (u : Sat) (c : Nat) (x : F32) :
    Gives (fun r => Advances Sat.life (Sat.fits p.toParams) u r.1) (u.proc p c x) :=
  .after fun _ => .ok (.of_life rfl fun h => (List.length_set ..).trans h)

theorem Pitch.proc_advances (p : Ctx) (u : Pitch) (c : Nat) (x : F32) :
    Gives (fun r => Advances Pitch.life (Pitch.fits p.toParams) u r.1) (u.proc p c x) :=
  .after fun _ => .ok (.of_life rfl fun h => (List.length_set ..).trans h)

theorem Dly.proc_advances (p : Ctx) (u : Dly) (c : Nat) (x : F32) :
    Gives (fun r => Advances Dly.life (Dly.fits p.toParams) u r.1) (u.proc p c x) :=
  .after fun _ => .ok (.of_life rfl fun h => (List.length_set ..).trans h)

theorem Lim.proc_advances (p : Ctx) (u : Lim) (c : Nat) (x : F32) :
    Gives (fun r => Advances Lim.life (Lim.fits p.toParams) u r.1) (u.proc p c x) :=
  .after fun _ => .ok (.of_life rfl fun h => (List.length_set ..).trans h)

theorem Wid.proc_advances (p : Ctx) (u : Wid) (i : Nat) (l r : F32) :
    Gives (fun r => Advances Wid.life (Wid.fits p.toParams) u r.1) (u.proc p i l r) :=
  .after fun _ => .ok (.of_life rfl fun h => (List.length_set ..).trans h)

theorem Xn.gather_advances (p : Ctx) (u : Xn) (c : Nat) (x : F32) :
    Gives (Advances Xn.life (Xn.fits p.toParams) u) (u.gather p c x) :=
  .after fun _ => .ok (.of_life rfl fun h => (List.length_set ..).trans h)

theorem Xn.analyze_advances (p : Ctx) (u : Xn) : Gives (Advances Xn.life (Xn.fits p.toParams) u) (u.analyze p) := by
  refine .after fun _ => .ok ?_
  split
  · exact .refl u
  · exact .of_life rfl id

theorem Rvs.proc_advances (p : Ctx) (u : Rvs) (c : Nat) (x : F32) :
    Gives (fun r => Advances Rvs.life (Rvs.fits p.toParams) u r.1) (u.proc p c x) := by
  refine .after fun _ => .ok (.of_life rfl fun ⟨hch, hclen, halen, hinner⟩ =>
    ⟨(List.length_set ..).trans hch, hclen, halen, forall_mem_set hinner
      (f := fun t => (rvsStep p u.P u.clen u.alen t x).1) fun a ha => ?_⟩)
  obtain ⟨hcombs, haps⟩ := rvsStep_lengths p u.P u.clen u.alen a x
  exact ⟨hcombs.trans ha.1, haps.trans ha.2⟩

theorem Fdn.proc_advances (p : Ctx) (u : Fdn) (c : Nat) (x : F32) :
    Gives (fun r => Advances Fdn.life (Fdn.fits p.toParams) u r.1) (u.proc p c x) :=
  .after fun _ => .ok (.of_life rfl fun ⟨hch, hlen, hinner⟩ =>
    ⟨(List.length_set ..).trans hch, hlen, forall_mem_set hinner fun _ ha => fdnStep_lengths p u.P u.C x ha⟩)

theorem push_length {n : Nat} {l : List F32} (x : F32) (h : l.length = n) : (push n x l).length = n := by
  simp [push, h]

theorem Os.up_advances (p : Ctx) (u : Os) (c : Nat) (x : F32) :
    Gives (fun r => Advances Os.life (Os.fits p.toParams) u r.1) (u.up p c x) :=
  .after fun _ => .ok (.of_life rfl fun ⟨hch, hinner⟩ =>
    ⟨(List.length_set ..).trans hch, forall_mem_set hinner (f := fun s => { s with uph := push 16 x s.uph })
      fun _ ha => ⟨push_length x ha.1, ha.2⟩⟩)

theorem Os.down_advances (p : Ctx) (u : Os) (c : Nat) (u0 u1 u2 u3 : F32) :
    Gives (fun r => Advances Os.life (Os.fits p.toParams) u r.1) (u.down p c u0 u1 u2 u3) :=
  .after fun _ => .ok (.of_life rfl fun ⟨hch, hinner⟩ =>
    ⟨(List.length_set ..).trans hch, forall_mem_set hinner
      (f := fun s => { s with dnh := push 64 u3 (push 64 u2 (push 64 u1 (push 64 u0 s.dnh))) })
      fun _ ha => ⟨ha.1, push_length u3 (push_length u2 (push_length u1 (push_length u0 ha.2)))⟩⟩)

/-! ### AUX: control inputs, and the coefficients that follow them -/

theorem Agc.ext_advances (p : Ctx) (u : Agc) (m : Bool) (v : F32) :
    Gives (Advances Agc.life (Agc.fits p.toParams) u) (u.ext p m v) :=
  .after fun _ => .ok (.of_life rfl id)

theorem Fet.thoff_advances (p : Ctx) (u : Fet) (v : F32) :
    Gives (Advances Fet.life (Fet.fits p.toParams) u) (u.thoff p v) :=
  .after fun _ => .ok (.of_life rfl id)

theorem Sat.dscale_advances (p : Params) (u : Sat) (v : F32) :
    Gives (Advances Sat.life (Sat.fits p) u) (u.dscale v) :=
  .after fun _ => .ok (.of_life rfl id)

theorem Bq.goff_advances (p : Ctx) (u : Bq) (v : F32) :
    Gives (Advances Bq.life (Bq.fits p.toParams) u) (u.goff p v) :=
  .after fun _ => .ok (.of_life (Bq.derive_life ..) fun h => by simpa [Bq.fits] using h)

theorem Svf.goff_advances (p : Ctx) (u : Svf) (v : F32) :
    Gives (Advances Svf.life (Svf.fits p.toParams) u) (u.goff p v) :=
  .after fun _ => .ok (.of_life (Svf.derive_life ..) fun h => by simpa [Svf.fits] using h)

end Sys2Proof.Machine
end

section
/-! What WR and RESTORE keep (rules R71, R387, R401, R405): a written register moves no lifecycle flag and no copy, and
the Pipeline Configuration stays one that `PIPE.CFG` accepts. -/

namespace Sys2Proof.Machine

/-! ### A register written -/

theorem advances_iff {U : Type} {life : U → Life} {fits : U → Prop} {u v : U} :
    Advances life fits u v ↔ (life u).within (life v) ∧ (fits u → fits v) :=
  ⟨fun h => ⟨h.within, h.fits⟩, fun h => ⟨h.1, h.2⟩⟩

/-- A register whose write leads from a unit to one that `P` relates to it. -/
def View.Keeps {U : Type} (P : U → U → Prop) (view : View U) : Prop := ∀ u c w v, view.set u c w = some v → P u v

section
variable {U : Type} {P : U → U → Prop}

@[simp] theorem View.keeps_raw {get : U → Word} {set : U → Word → U} :
    (View.raw get set).Keeps P ↔ ∀ u w, P u (set u w) := by
  simp [View.Keeps, View.raw]

@[simp] theorem View.keeps_coded {α : Type} {get : U → Word} {of : Word → Option α} {set : U → α → U} :
    (View.coded get of set).Keeps P ↔ ∀ u w a, of w = some a → P u (set u a) := by
  simp [View.Keeps, View.coded]

@[simp] theorem View.keeps_fixed {get : U → Word} : (View.fixed get).Keeps P := nofun

@[simp] theorem View.keeps_copy {S : Type} {list : U → List S} {put : U → List S → U} {fresh : S} {get : S → Word}
    {set : S → Word → Option S} : (View.copy list put fresh get set).Keeps P ↔
      ∀ u c w t, set ((list u).getD c fresh) w = some t → P u (put u ((list u).set c t)) := by
  simp [View.Keeps, View.copy]

/-- What every element of a list has, and a partial function keeps, is still so with what it gives for one element in
that element's place. -/
theorem forall_mem_set_some {α : Type} {Q : α → Prop} {l : List α} {c : Nat} {d t : α} {f : α → Option α}
    (h : ∀ a ∈ l, Q a) (hf : ∀ a b, f a = some b → Q a → Q b) (ht : f (l.getD c d) = some t) :
    ∀ a ∈ l.set c t, Q a := by
  have hset := forall_mem_set (c := c) (d := d) (f := fun a => (f a).getD a) h fun a ha => by
    cases hb : f a with
    | none => exact ha
    | some b => exact hf a b hb ha
  rwa [ht] at hset

/-- A write through the register file of a unit goes through one of its views. -/
theorem unitAccess_write_keeps {life : Life} {snap : Bool} {views : List (View U)} {u : U} {put : U → State} {c r : Nat}
    {w : Word} {t : State} (hviews : ∀ view ∈ views, view.Keeps P)
    (h : (unitAccess life snap views u put c r).write w = some t) : ∃ v, P u v ∧ t = put v := by
  simp only [unitAccess] at h
  split at h
  · rename_i view hview
    obtain ⟨v, hv, rfl⟩ := Option.map_eq_some_iff.1 h
    exact ⟨v, hviews view (List.mem_of_getElem? hview) u c w v hv, rfl⟩
  · cases h

end

section
set_option Elab.async false
variable (p : Params)

theorem envViews_advance : ∀ view ∈ envViews, view.Keeps (Advances Env.life (Env.fits p)) := by
  simp [envViews, advances_iff, Life.within.refl, Env.fits]

theorem bqViews_advance : ∀ view ∈ bqViews, view.Keeps (Advances Bq.life (Bq.fits p)) := by
  simp [bqViews, bqTap, advances_iff, Life.within.refl, Bq.fits]

theorem svfViews_advance : ∀ view ∈ svfViews, view.Keeps (Advances Svf.life (Svf.fits p)) := by
  simp [svfViews, svfCopy, advances_iff, Life.within.refl, Svf.fits]

theorem gateViews_advance : ∀ view ∈ gateViews, view.Keeps (Advances Gate.life (Gate.fits p)) := by
  simp [gateViews, gateCopy, advances_iff, Life.within.refl, Gate.fits]

theorem agcViews_advance : ∀ view ∈ agcViews, view.Keeps (Advances Agc.life (Agc.fits p)) := by
  simp [agcViews, agcCopy, advances_iff, Life.within.refl, Agc.fits]

theorem deessViews_advance : ∀ view ∈ deessViews, view.Keeps (Advances Deess.life (Deess.fits p)) := by
  simp [deessViews, deessCopy, advances_iff, Life.within.refl, Deess.fits]

theorem compViews_advance : ∀ view ∈ compViews, view.Keeps (Advances Comp.life (Comp.fits p)) := by
  simp [compViews, advances_iff, Life.within.refl, Comp.fits]

theorem fetViews_advance : ∀ view ∈ fetViews, view.Keeps (Advances Fet.life (Fet.fits p)) := by
  simp [fetViews, advances_iff, Life.within.refl, Fet.fits]

theorem satViews_advance : ∀ view ∈ satViews, view.Keeps (Advances Sat.life (Sat.fits p)) := by
  simp [satViews, satCopy, advances_iff, Life.within.refl, Sat.fits]

theorem pitchViews_advance : ∀ view ∈ pitchViews, view.Keeps (Advances Pitch.life (Pitch.fits p)) := by
  simp [pitchViews, pitchCopy, advances_iff, Life.within.refl, Pitch.fits]

theorem dlyViews_advance : ∀ view ∈ dlyViews, view.Keeps (Advances Dly.life (Dly.fits p)) := by
  simp [dlyViews, dlyCopy, advances_iff, Life.within.refl, Dly.fits]

theorem widPair_advances (get : WidS → Word) (set : WidS → Word → WidS) :
    (widPair get set).Keeps (Advances Wid.life (Wid.fits p)) := by
  rintro u c w _ ⟨⟩
  exact .of_life rfl fun h => (List.length_set ..).trans h

theorem widViews_advance : ∀ view ∈ widViews, view.Keeps (Advances Wid.life (Wid.fits p)) := by
  simp [widViews, widPair_advances, advances_iff, Life.within.refl, Wid.fits]

theorem limViews_advance : ∀ view ∈ limViews, view.Keeps (Advances Lim.life (Lim.fits p)) := by
  simp [limViews, limCopy, advances_iff, Life.within.refl, Lim.fits]

theorem xnViews_advance : ∀ view ∈ xnViews, view.Keeps (Advances Xn.life (Xn.fits p)) := by
  simp [xnViews, xnCopy, advances_iff, Life.within.refl, Xn.fits]

/-- A register in a channel of RVS, where its write keeps the combs and allpasses of the channel. -/
theorem rvsCopy_advances {get : RvsS → Word} {set : RvsS → Word → Option RvsS}
    (h : ∀ w a b, set a w = some b → a.combs.length = 8 ∧ a.aps.length = 4 → b.combs.length = 8 ∧ b.aps.length = 4) :
    (rvsCopy get set).Keeps (Advances Rvs.life (Rvs.fits p)) :=
  View.keeps_copy.2 fun _ _ w _ ht => .of_life rfl fun ⟨hch, hclen, halen, hinner⟩ =>
    ⟨(List.length_set ..).trans hch, hclen, halen, forall_mem_set_some hinner (h w) ht⟩

theorem rvsViews_advance : ∀ view ∈ rvsViews, view.Keeps (Advances Rvs.life (Rvs.fits p)) := by
  simp only [rvsViews, List.forall_mem_append, List.forall_mem_map]
  refine ⟨⟨⟨⟨⟨?_, fun _ _ => View.keeps_fixed⟩, fun _ _ => View.keeps_fixed⟩, fun j _ => ?_⟩, fun j _ => ?_⟩,
    fun j _ => ?_⟩
  · simp [advances_iff, Life.within.refl, Rvs.fits]
  · refine rvsCopy_advances p fun w a b hb ha => ?_
    obtain ⟨v, -, rfl⟩ := Option.map_eq_some_iff.1 hb
    exact ⟨(List.length_set ..).trans ha.1, ha.2⟩
  · refine rvsCopy_advances p fun w a b hb ha => ?_
    cases hb
    exact ⟨(List.length_set ..).trans ha.1, ha.2⟩
  · refine rvsCopy_advances p fun w a b hb ha => ?_
    obtain ⟨v, -, rfl⟩ := Option.map_eq_some_iff.1 hb
    exact ⟨ha.1, (List.length_set ..).trans ha.2⟩

/-- A register in a channel of FDN, where its write keeps the stores and lines of the channel. -/
theorem fdnCopy_advances {get : FdnS → Word} {set : FdnS → Word → Option FdnS}
    (h : ∀ w a b, set a w = some b → a.lp.length = 8 ∧ a.lb.length = 8 → b.lp.length = 8 ∧ b.lb.length = 8) :
    (fdnCopy get set).Keeps (Advances Fdn.life (Fdn.fits p)) :=
  View.keeps_copy.2 fun _ _ w _ ht => .of_life rfl fun ⟨hch, hlen, hinner⟩ =>
    ⟨(List.length_set ..).trans hch, hlen, forall_mem_set_some hinner (h w) ht⟩

theorem fdnViews_advance : ∀ view ∈ fdnViews, view.Keeps (Advances Fdn.life (Fdn.fits p)) := by
  simp only [fdnViews, List.forall_mem_append, List.forall_mem_map, List.forall_mem_singleton]
  refine ⟨⟨⟨?_, fun _ _ => View.keeps_fixed⟩, ?_⟩, fun j _ => ?_⟩
  · simp [advances_iff, Life.within.refl, Fdn.fits]
  · refine fdnCopy_advances p fun w a b hb ha => ?_
    obtain ⟨v, -, rfl⟩ := Option.map_eq_some_iff.1 hb
    exact ha
  · refine fdnCopy_advances p fun w a b hb ha => ?_
    cases hb
    exact ⟨(List.length_set ..).trans ha.1, ha.2⟩

/-- A register in a channel of OS, where its write keeps the lengths of the histories. -/
theorem osCopy_advances {get : OsS → Word} {set : OsS → Word → OsS}
    (h : ∀ a w, (set a w).uph.length = a.uph.length ∧ (set a w).dnh.length = a.dnh.length) :
    (osCopy get set).Keeps (Advances Os.life (Os.fits p)) := by
  refine View.keeps_copy.2 fun u c w t ht => .of_life rfl fun ⟨hch, hinner⟩ =>
    ⟨(List.length_set ..).trans hch, forall_mem_set_some (d := OsS.fresh) (f := fun a => some (set a w)) hinner
      (fun a b hb ha => ?_) ht⟩
  cases hb
  exact ⟨(h a w).1.trans ha.1, (h a w).2.trans ha.2⟩

theorem osViews_advance : ∀ view ∈ osViews, view.Keeps (Advances Os.life (Os.fits p)) := by
  simp only [osViews, List.forall_mem_append, List.forall_mem_map]
  exact ⟨fun _ _ => osCopy_advances p fun _ _ => ⟨List.length_set .., rfl⟩,
    fun _ _ => osCopy_advances p fun _ _ => ⟨rfl, List.length_set ..⟩⟩

end

/-! ### The Pipeline Configuration -/

/-- PIPE keeps its `CONFIGURED` bit, becomes active by no command of this kind, and keeps, while it is configured, P
registers that `PIPE.CFG` accepts (rules R33, R386, R387). -/
structure Pipe.Advances (p : Params) (u v : Pipe) : Prop where
  configured : u.life.configured = true → v.life.configured = true
  active : v.life.active = true → u.life.active = true
  legal : (u.life.configured = true → pipeCfgOk p u.P = true) → v.life.configured = true → pipeCfgOk p v.P = true

theorem Pipe.Advances.refl (p : Params) (u : Pipe) : Pipe.Advances p u u := ⟨id, id, id⟩

theorem Pipe.Advances.trans {p : Params} {u v w : Pipe} (h : Pipe.Advances p u v) (k : Pipe.Advances p v w) :
    Pipe.Advances p u w := ⟨k.configured ∘ h.configured, h.active ∘ k.active, k.legal ∘ h.legal⟩

/-- The lifecycle as it was, and P registers that are legal where they were. -/
theorem Pipe.Advances.of_life {p : Params} {u v : Pipe} (hl : v.life = u.life)
    (hP : pipeCfgOk p u.P = true → pipeCfgOk p v.P = true) : Pipe.Advances p u v :=
  ⟨fun h => hl ▸ h, fun h => hl ▸ h, fun hu h => hP (hu (hl ▸ h))⟩

theorem accept_eq_some {ok : Bool} {w a : Word} : accept ok w = some a ↔ ok = true ∧ a = w := by
  cases ok <;> simp [accept, eq_comm]

/-- The operand check of `PIPE.CFG`, register by register (rule R387). -/
theorem pipeCfgOk_iff {p : Params} {c : PipeP} : pipeCfgOk p c = true ↔ enOk c.en = true ∧ selOk c.sel = true ∧
    bandMaskOk p c.eqKind = true ∧ bandMaskOk p c.eqBandEn = true ∧ mudBandOk p c.eqMudBand = true := by
  simp only [pipeCfgOk, Bool.and_eq_true, and_assoc]

/-- WR of a P register of PIPE checks the word as `PIPE.CFG` does (rules R387, R401). -/
theorem pipeViews_advance (p : Params) : ∀ view ∈ pipeViews p, view.Keeps (Pipe.Advances p) := by
  simp only [pipeViews, List.forall_mem_cons, View.keeps_raw, View.keeps_coded, accept_eq_some]
  refine ⟨?_, ?_, ?_, ?_, ?_, fun _ _ => .of_life rfl id, fun _ _ => .of_life rfl id, fun _ _ => .of_life rfl id,
    fun _ _ => .of_life rfl id, fun _ _ => .of_life rfl id, View.keeps_fixed, View.keeps_fixed, View.keeps_fixed,
    View.keeps_fixed, fun _ _ => .of_life rfl id, nofun⟩
  all_goals
    rintro u w _ ⟨hw, rfl⟩
    refine .of_life rfl fun hu => ?_
    obtain ⟨hen, hsel, hkind, hband, hmud⟩ := pipeCfgOk_iff.1 hu
    exact pipeCfgOk_iff.2 (by simp_all)

/-! ### The reader of a saved stream (rule R405) -/

/-- Whatever the reader reads satisfies `Q`. -/
def Reader.Yields {α : Type} (Q : α → Prop) (r : Reader α) : Prop := ∀ ws a rest, r ws = some (a, rest) → Q a

section
variable {α β : Type} {Q : α → Prop} {S : β → Prop}

theorem Reader.Yields.andThen {r : Reader α} {f : α → Reader β} (hr : r.Yields Q) (hf : ∀ a, Q a → (f a).Yields S) :
    (r.andThen f).Yields S := by
  intro ws b rest h
  unfold Reader.andThen at h
  split at h
  · exact hf _ (hr _ _ _ ‹_›) _ _ _ h
  · cases h

/-- Behind a value that does not matter. -/
theorem Reader.Yields.skip {r : Reader α} {f : α → Reader β} (hf : ∀ a, (f a).Yields S) : (r.andThen f).Yields S :=
  .andThen (Q := fun _ => True) (fun _ _ _ _ => trivial) fun a _ => hf a

theorem Reader.Yields.done {a : α} (h : Q a) : (Reader.done a).Yields Q := by
  rintro ws _ rest ⟨⟩
  exact h

/-- `n` values are read one after another. -/
theorem Reader.Yields.times (r : Reader α) (n : Nat) : (Reader.times r n).Yields fun as => as.length = n := by
  induction n with
  | zero => exact .done rfl
  | succ n ih => exact .skip fun a => ih.andThen fun as has => .done (by simp [has])

end

theorem assemble_lt (bs : List Bool) : assemble bs < 2 ^ bs.length := by
  induction bs with
  | nil => simp [assemble]
  | cons b bs ih => cases b <;> simp [assemble, Nat.pow_succ] <;> omega

/-- `n` flag words make a word with no bit at or above `n`. -/
theorem readBits_yields (n : Nat) : (readBits n).Yields fun w => w.toNat < 2 ^ n := by
  refine (Reader.Yields.times _ n).andThen fun bs hbs => .done ?_
  rw [BitVec.toNat_ofNat, ← hbs]
  exact Nat.lt_of_le_of_lt (Nat.mod_le _ _) (assemble_lt bs)

theorem readMudBand_yields (p : Params) : (readMudBand p).Yields fun w => mudBandOk p w = true := by
  intro ws a rest h
  cases ws with
  | nil => cases h
  | cons w ws =>
    obtain ⟨b, hb, hab⟩ := Option.map_eq_some_iff.1 h
    obtain ⟨hok, rfl⟩ := accept_eq_some.1 hb
    cases hab
    exact hok

/-- A stream holds a Pipeline Configuration that `PIPE.CFG` accepts. -/
theorem readPipe_yields (p : Params) : (readPipe p).Yields fun c => pipeCfgOk p c = true :=
  (readBits_yields 12).andThen fun _ hen => (readBits_yields 2).andThen fun _ hsel =>
  (readBits_yields p.neq).andThen fun _ hkind => (readBits_yields p.neq).andThen fun _ hband =>
  (readMudBand_yields p).andThen fun _ hmud => .done (pipeCfgOk_iff.2
    ⟨enOk_iff.2 hen, selOk_iff.2 hsel, bandMaskOk_iff.2 fun _ => hkind, bandMaskOk_iff.2 fun _ => hband, hmud⟩)

/-- What every stream that is accepted holds: NEQ instances of each filter, and a legal Pipeline Configuration. -/
def Saved.legal (p : Params) (v : Saved) : Prop :=
  v.bq.length = p.neq ∧ v.svf.length = p.neq ∧ pipeCfgOk p v.pipe = true

theorem readSaved_yields (p : Params) : (readSaved p).Yields (Saved.legal p) :=
  .skip fun _ => (Reader.Yields.times readBq p.neq).andThen fun _ hbq =>
  (Reader.Yields.times readSvf p.neq).andThen fun _ hsvf =>
  .skip fun _ => .skip fun _ => .skip fun _ => .skip fun _ => .skip fun _ => .skip fun _ => .skip fun _ =>
  .skip fun _ => .skip fun _ => .skip fun _ => .skip fun _ => .skip fun _ => .skip fun _ =>
  (readPipe_yields p).andThen fun _ hpipe => .done ⟨hbq, hsvf, hpipe⟩

/-- A stream that parses is read to its end. -/
theorem parseSaved_eq_some {p : Params} {ws : List Word} {v : Saved} (h : parseSaved p ws = some v) :
    readSaved p ws = some (v, []) := by
  unfold parseSaved at h
  split at h
  · rename_i hv
    cases h
    exact hv
  · cases h

/-- The stream that RESTORE takes (rule R405). -/
theorem streamOf_gives (p : Params) (n : Word) (ws : List Word) : Gives (Saved.legal p) (streamOf p n ws) := by
  refine .ite ?_ nofun
  split
  · exact .ok (readSaved_yields p _ _ _ (parseSaved_eq_some ‹_›))
  · nofun

end Sys2Proof.Machine
end

section
/-! How the state moves under every command but RST of PIPE and DEINIT (rules R31 to R36, R386, R387): each unit keeps
its flags and its copies, and PIPE its legal configuration. -/

namespace Sys2Proof.Machine

/-! ### The instances of BQ and SVF -/

section
variable {U : Type} {life : U → Life} {fits : U → Prop} {n : Nat} {us vs : List U}

/-- `n` instances stay `n`, and every instance that there is afterwards comes from the one in its place. -/
structure AdvancesAll (life : U → Life) (fits : U → Prop) (n : Nat) (us vs : List U) : Prop where
  length : us.length = n → vs.length = n
  source : ∀ (i : Nat) (v : U), vs[i]? = some v → ∃ u, us[i]? = some u ∧ Advances life fits u v

theorem AdvancesAll.refl (us : List U) : AdvancesAll life fits n us us := ⟨id, fun _ v h => ⟨v, h, .refl v⟩⟩

theorem AdvancesAll.trans {ws : List U} (h : AdvancesAll life fits n us vs) (k : AdvancesAll life fits n vs ws) :
    AdvancesAll life fits n us ws := by
  refine ⟨k.length ∘ h.length, fun i w hw => ?_⟩
  obtain ⟨v, hv, hvw⟩ := k.source i w hw
  obtain ⟨u, hu, huv⟩ := h.source i v hv
  exact ⟨u, hu, huv.trans hvw⟩

/-- One instance replaced by what it advances to. -/
theorem AdvancesAll.set {i : Nat} {d v : U} (h : Advances life fits (us.getD i d) v) :
    AdvancesAll life fits n us (us.set i v) := by
  refine ⟨fun hlen => (List.length_set ..).trans hlen, fun j w hw => ?_⟩
  rw [List.getElem?_set] at hw
  split at hw
  · rename_i hij
    subst hij
    split at hw
    · rename_i hi
      cases hw
      exact ⟨us[i], List.getElem?_eq_getElem hi, List.getD_eq_getElem _ d hi ▸ h⟩
    · cases hw
  · exact ⟨w, hw, .refl w⟩

/-- The same operation on every instance. -/
theorem AdvancesAll.map {f : U → U} (h : ∀ u, Advances life fits u (f u)) : AdvancesAll life fits n us (us.map f) := by
  refine ⟨fun hlen => (List.length_map ..).trans hlen, fun i v hv => ?_⟩
  rw [List.getElem?_map] at hv
  obtain ⟨u, hu, rfl⟩ := Option.map_eq_some_iff.1 hv
  exact ⟨u, hu, h u⟩

/-- An operation on every instance with an operand for each. -/
theorem AdvancesAll.zipWith {P : Type} {ps : List P} {f : U → P → U} (hps : ps.length = n)
    (h : ∀ u a, Advances life fits u (f u a)) : AdvancesAll life fits n us (List.zipWith f us ps) := by
  refine ⟨fun hlen => by simp [hlen, hps], fun i v hv => ?_⟩
  obtain ⟨u, a, hu, -, rfl⟩ := List.getElem?_zipWith_eq_some.1 hv
  exact ⟨u, hu, h u a⟩

/-- What advancing one instance carries over, advancing all does. -/
theorem AdvancesAll.forall_mem {Q : U → Prop} (h : AdvancesAll life fits n us vs)
    (hQ : ∀ u v, Advances life fits u v → Q u → Q v) (hus : ∀ u ∈ us, Q u) : ∀ v ∈ vs, Q v := by
  intro v hv
  obtain ⟨i, hi⟩ := List.mem_iff_getElem?.1 hv
  obtain ⟨u, hu, huv⟩ := h.source i v hi
  exact hQ u v huv (hus u (List.mem_of_getElem? hu))

/-- While there are `n` instances, no `CONFIGURED` bit is lost (rule R33). -/
theorem AdvancesAll.configured (h : AdvancesAll life fits n us vs) (hlen : us.length = n) (i : Nat)
    (hi : (us.map fun u => (life u).configured).getD i false = true) :
    (vs.map fun v => (life v).configured).getD i false = true := by
  by_cases hn : i < n
  · obtain ⟨v, hv⟩ : ∃ v, vs[i]? = some v := ⟨_, List.getElem?_eq_getElem (h.length hlen ▸ hn)⟩
    obtain ⟨u, hu, huv⟩ := h.source i _ hv
    simp only [List.getD_eq_getElem?_getD, List.getElem?_map, hu, hv] at hi ⊢
    exact huv.within.2 hi
  · rw [List.getD_eq_default _ _ (by simpa [hlen] using hn)] at hi
    cases hi

end

/-! ### The units of the state -/

/-- Every unit other than PIPE advances. -/
structure State.UnitsAdvance (s t : State) : Prop where
  params : t.params = s.params
  env : Advances Env.life (Env.fits s.params) s.env t.env
  bq : AdvancesAll Bq.life (Bq.fits s.params) s.params.neq s.bq t.bq
  svf : AdvancesAll Svf.life (Svf.fits s.params) s.params.neq s.svf t.svf
  gate : Advances Gate.life (Gate.fits s.params) s.gate t.gate
  agc : Advances Agc.life (Agc.fits s.params) s.agc t.agc
  deess : Advances Deess.life (Deess.fits s.params) s.deess t.deess
  comp : Advances Comp.life (Comp.fits s.params) s.comp t.comp
  fet : Advances Fet.life (Fet.fits s.params) s.fet t.fet
  sat : Advances Sat.life (Sat.fits s.params) s.sat t.sat
  pitch : Advances Pitch.life (Pitch.fits s.params) s.pitch t.pitch
  dly : Advances Dly.life (Dly.fits s.params) s.dly t.dly
  rvs : Advances Rvs.life (Rvs.fits s.params) s.rvs t.rvs
  fdn : Advances Fdn.life (Fdn.fits s.params) s.fdn t.fdn
  wid : Advances Wid.life (Wid.fits s.params) s.wid t.wid
  os : Advances Os.life (Os.fits s.params) s.os t.os
  lim : Advances Lim.life (Lim.fits s.params) s.lim t.lim
  xn : Advances Xn.life (Xn.fits s.params) s.xn t.xn

/-- Every unit advances, PIPE among them. -/
structure State.Advances (s t : State) : Prop extends s.UnitsAdvance t where
  pipe : Pipe.Advances s.params s.pipe t.pipe

theorem State.Advances.refl (s : State) : s.Advances s :=
  ⟨⟨rfl, .refl _, .refl _, .refl _, .refl _, .refl _, .refl _, .refl _, .refl _, .refl _, .refl _, .refl _, .refl _,
    .refl _, .refl _, .refl _, .refl _, .refl _⟩, .refl ..⟩

theorem State.Advances.trans {s t u : State} (h : s.Advances t) (k : t.Advances u) : s.Advances u where
  params := k.params.trans h.params
  env := h.env.trans (h.params ▸ k.env)
  bq := h.bq.trans (h.params ▸ k.bq)
  svf := h.svf.trans (h.params ▸ k.svf)
  gate := h.gate.trans (h.params ▸ k.gate)
  agc := h.agc.trans (h.params ▸ k.agc)
  deess := h.deess.trans (h.params ▸ k.deess)
  comp := h.comp.trans (h.params ▸ k.comp)
  fet := h.fet.trans (h.params ▸ k.fet)
  sat := h.sat.trans (h.params ▸ k.sat)
  pitch := h.pitch.trans (h.params ▸ k.pitch)
  dly := h.dly.trans (h.params ▸ k.dly)
  rvs := h.rvs.trans (h.params ▸ k.rvs)
  fdn := h.fdn.trans (h.params ▸ k.fdn)
  wid := h.wid.trans (h.params ▸ k.wid)
  os := h.os.trans (h.params ▸ k.os)
  lim := h.lim.trans (h.params ▸ k.lim)
  xn := h.xn.trans (h.params ▸ k.xn)
  pipe := h.pipe.trans (h.params ▸ k.pipe)

/-! ### One unit put into the state -/

section
variable {s : State}

theorem State.advances_env {v : Env} (h : Machine.Advances Env.life (Env.fits s.params) s.env v) :
    s.Advances { s with env := v } := { State.Advances.refl s with env := h }

theorem State.advances_bq {vs : List Bq} (h : AdvancesAll Bq.life (Bq.fits s.params) s.params.neq s.bq vs) :
    s.Advances { s with bq := vs } := { State.Advances.refl s with bq := h }

theorem State.advances_svf {vs : List Svf} (h : AdvancesAll Svf.life (Svf.fits s.params) s.params.neq s.svf vs) :
    s.Advances { s with svf := vs } := { State.Advances.refl s with svf := h }

theorem State.advances_gate {v : Gate} (h : Machine.Advances Gate.life (Gate.fits s.params) s.gate v) :
    s.Advances { s with gate := v } := { State.Advances.refl s with gate := h }

theorem State.advances_agc {v : Agc} (h : Machine.Advances Agc.life (Agc.fits s.params) s.agc v) :
    s.Advances { s with agc := v } := { State.Advances.refl s with agc := h }

theorem State.advances_deess {v : Deess} (h : Machine.Advances Deess.life (Deess.fits s.params) s.deess v) :
    s.Advances { s with deess := v } := { State.Advances.refl s with deess := h }

theorem State.advances_comp {v : Comp} (h : Machine.Advances Comp.life (Comp.fits s.params) s.comp v) :
    s.Advances { s with comp := v } := { State.Advances.refl s with comp := h }

theorem State.advances_fet {v : Fet} (h : Machine.Advances Fet.life (Fet.fits s.params) s.fet v) :
    s.Advances { s with fet := v } := { State.Advances.refl s with fet := h }

theorem State.advances_sat {v : Sat} (h : Machine.Advances Sat.life (Sat.fits s.params) s.sat v) :
    s.Advances { s with sat := v } := { State.Advances.refl s with sat := h }

theorem State.advances_pitch {v : Pitch} (h : Machine.Advances Pitch.life (Pitch.fits s.params) s.pitch v) :
    s.Advances { s with pitch := v } := { State.Advances.refl s with pitch := h }

theorem State.advances_dly {v : Dly} (h : Machine.Advances Dly.life (Dly.fits s.params) s.dly v) :
    s.Advances { s with dly := v } := { State.Advances.refl s with dly := h }

theorem State.advances_rvs {v : Rvs} (h : Machine.Advances Rvs.life (Rvs.fits s.params) s.rvs v) :
    s.Advances { s with rvs := v } := { State.Advances.refl s with rvs := h }

theorem State.advances_fdn {v : Fdn} (h : Machine.Advances Fdn.life (Fdn.fits s.params) s.fdn v) :
    s.Advances { s with fdn := v } := { State.Advances.refl s with fdn := h }

theorem State.advances_wid {v : Wid} (h : Machine.Advances Wid.life (Wid.fits s.params) s.wid v) :
    s.Advances { s with wid := v } := { State.Advances.refl s with wid := h }

theorem State.advances_os {v : Os} (h : Machine.Advances Os.life (Os.fits s.params) s.os v) :
    s.Advances { s with os := v } := { State.Advances.refl s with os := h }

theorem State.advances_lim {v : Lim} (h : Machine.Advances Lim.life (Lim.fits s.params) s.lim v) :
    s.Advances { s with lim := v } := { State.Advances.refl s with lim := h }

theorem State.advances_xn {v : Xn} (h : Machine.Advances Xn.life (Xn.fits s.params) s.xn v) :
    s.Advances { s with xn := v } := { State.Advances.refl s with xn := h }

theorem State.advances_pipe {v : Pipe} (h : Pipe.Advances s.params s.pipe v) :
    s.Advances { s with pipe := v } := { State.Advances.refl s with pipe := h }

theorem State.advances_setBq {i : Nat} {v : Bq} (h : Machine.Advances Bq.life (Bq.fits s.params) (s.bqAt i) v) :
    s.Advances (s.setBq i v) := State.advances_bq (.set h)

theorem State.advances_setSvf {i : Nat} {v : Svf}
    (h : Machine.Advances Svf.life (Svf.fits s.params) (s.svfAt i) v) : s.Advances (s.setSvf i v) :=
  State.advances_svf (.set h)

end

/-! ### The operations that PIPE performs on the units -/

/-- Every operation of a unit advances the state, and PIPE's latch, latency and block flag have no part in it. -/
theorem State.Advances.respected : Respected State.Advances where
  refl := .refl
  trans := .trans
  gateProc s c x := (s.gate.proc_advances s.ctx c x).bind fun _ h => .ok (State.advances_gate h)
  agcProc s c x := (s.agc.proc_advances s.ctx c x).bind fun _ h => .ok (State.advances_agc h)
  pitchProc s c x := (s.pitch.proc_advances s.ctx c x).bind fun _ h => .ok (State.advances_pitch h)
  deessProc s c x := (s.deess.proc_advances s.ctx c x).bind fun _ h => .ok (State.advances_deess h)
  bqProc s c b x := ((s.bqAt b).proc_advances s.ctx c x).bind fun _ h => .ok (State.advances_setBq h)
  svfProc s c b x := ((s.svfAt b).proc_advances s.ctx c x).bind fun _ h => .ok (State.advances_setSvf h)
  compProc s c x := (s.comp.proc_advances s.ctx c x).bind fun _ h => .ok (State.advances_comp h)
  fetProc s c x := (s.fet.proc_advances s.ctx c x).bind fun _ h => .ok (State.advances_fet h)
  satProc s c x := (s.sat.proc_advances s.ctx c x).bind fun _ h => .ok (State.advances_sat h)
  osUp s c x := (s.os.up_advances s.ctx c x).bind fun _ h => .ok (State.advances_os h)
  osDown s c u0 u1 u2 u3 := (s.os.down_advances s.ctx c u0 u1 u2 u3).bind fun _ h => .ok (State.advances_os h)
  dlyProc s c x := (s.dly.proc_advances s.ctx c x).bind fun _ h => .ok (State.advances_dly h)
  rvsProc s c x := (s.rvs.proc_advances s.ctx c x).bind fun _ h => .ok (State.advances_rvs h)
  fdnProc s c x := (s.fdn.proc_advances s.ctx c x).bind fun _ h => .ok (State.advances_fdn h)
  widProc s i l r := (s.wid.proc_advances s.ctx i l r).bind fun _ h => .ok (State.advances_wid h)
  limProc s c x := (s.lim.proc_advances s.ctx c x).bind fun _ h => .ok (State.advances_lim h)
  xnAcc s c x := (s.xn.gather_advances s.ctx c x).bind fun _ h => .ok (State.advances_xn h)
  xnAnalyze s := (s.xn.analyze_advances s.ctx).bind fun _ h => .ok (State.advances_xn h)
  agcExt s mode v := (s.agc.ext_advances s.ctx mode v).bind fun _ h => .ok (State.advances_agc h)
  fetThoff s v := (s.fet.thoff_advances s.ctx v).bind fun _ h => .ok (State.advances_fet h)
  satDscale s v := (s.sat.dscale_advances s.params v).bind fun _ h => .ok (State.advances_sat h)
  bqGoff s i v := .after fun _ => ((s.bqAt i).goff_advances s.ctx v).bind fun _ h => .ok (State.advances_setBq h)
  svfGoff s i v := .after fun _ => ((s.svfAt i).goff_advances s.ctx v).bind fun _ h => .ok (State.advances_setSvf h)
  pipe _ _ _ _ := State.advances_pipe (.of_life rfl id)

/-! ### RST of every filter instance, WR, `PIPE.CFG` and RESTORE -/

/-- RST of every instance of BQ (rule R171). -/
theorem State.bqRst_advances (s : State) (fs : F32) : Leads State.Advances id s (s.bqRst fs) :=
  .after fun _ => .ok (State.advances_bq (.map (Bq.reset_advances s.ctx fs)))

/-- RST of every instance of SVF (rule R181). -/
theorem State.svfRst_advances (s : State) (fs : F32) : Leads State.Advances id s (s.svfRst fs) :=
  .after fun _ => .ok (State.advances_svf (.map (Svf.reset_advances s.ctx fs)))

/-- A register written, of whichever unit (rule R401). -/
theorem State.writeReg_advances (s : State) (u : UnitId) (c i r : Nat) (w : Word) :
    Leads State.Advances id s (s.writeReg u c i r w) := by
  intro t ht
  obtain ⟨_, -, -, -, -, hw⟩ := State.writeReg_eq_ok.1 ht
  cases u with
  | env => obtain ⟨v, hv, rfl⟩ := unitAccess_write_keeps (envViews_advance s.params) hw; exact advances_env hv
  | bq => obtain ⟨v, hv, rfl⟩ := unitAccess_write_keeps (bqViews_advance s.params) hw; exact advances_setBq hv
  | svf => obtain ⟨v, hv, rfl⟩ := unitAccess_write_keeps (svfViews_advance s.params) hw; exact advances_setSvf hv
  | gate => obtain ⟨v, hv, rfl⟩ := unitAccess_write_keeps (gateViews_advance s.params) hw; exact advances_gate hv
  | agc => obtain ⟨v, hv, rfl⟩ := unitAccess_write_keeps (agcViews_advance s.params) hw; exact advances_agc hv
  | deess => obtain ⟨v, hv, rfl⟩ := unitAccess_write_keeps (deessViews_advance s.params) hw; exact advances_deess hv
  | comp => obtain ⟨v, hv, rfl⟩ := unitAccess_write_keeps (compViews_advance s.params) hw; exact advances_comp hv
  | fet => obtain ⟨v, hv, rfl⟩ := unitAccess_write_keeps (fetViews_advance s.params) hw; exact advances_fet hv
  | sat => obtain ⟨v, hv, rfl⟩ := unitAccess_write_keeps (satViews_advance s.params) hw; exact advances_sat hv
  | pitch => obtain ⟨v, hv, rfl⟩ := unitAccess_write_keeps (pitchViews_advance s.params) hw; exact advances_pitch hv
  | dly => obtain ⟨v, hv, rfl⟩ := unitAccess_write_keeps (dlyViews_advance s.params) hw; exact advances_dly hv
  | rvs => obtain ⟨v, hv, rfl⟩ := unitAccess_write_keeps (rvsViews_advance s.params) hw; exact advances_rvs hv
  | fdn => obtain ⟨v, hv, rfl⟩ := unitAccess_write_keeps (fdnViews_advance s.params) hw; exact advances_fdn hv
  | wid => obtain ⟨v, hv, rfl⟩ := unitAccess_write_keeps (widViews_advance s.params) hw; exact advances_wid hv
  | os => obtain ⟨v, hv, rfl⟩ := unitAccess_write_keeps (osViews_advance s.params) hw; exact advances_os hv
  | lim => obtain ⟨v, hv, rfl⟩ := unitAccess_write_keeps (limViews_advance s.params) hw; exact advances_lim hv
  | xn => obtain ⟨v, hv, rfl⟩ := unitAccess_write_keeps (xnViews_advance s.params) hw; exact advances_xn hv
  | pipe => obtain ⟨v, hv, rfl⟩ := unitAccess_write_keeps (pipeViews_advance s.params) hw; exact advances_pipe hv

/-- PIPE with P registers that `PIPE.CFG` accepts (rules R36, R387). -/
theorem Pipe.cfg_advances {p : Params} (u : Pipe) {P : PipeP} (h : pipeCfgOk p P = true) :
    Pipe.Advances p u (u.cfg P) := ⟨fun _ => rfl, id, fun _ _ => h⟩

/-- `PIPE.CFG` checks its operands first (rule R387). -/
theorem State.pipeCfg_advances (s : State) (P : PipeP) : Leads State.Advances id s (s.pipeCfg P) :=
  Gives.bind (Q := fun _ => pipeCfgOk s.params P = true) (fun _ h => require_eq_ok.1 h) fun _ h =>
    .ok (State.advances_pipe (s.pipe.cfg_advances h))

/-- RESTORE configures every unit with a CFG, every instance, from a legal stream (rule R405). -/
theorem State.restored_advances (s : State) {v : Saved} (h : v.legal s.params) : s.Advances (s.restored v) := by
  obtain ⟨hbq, hsvf, hpipe⟩ := h
  exact {
    params := rfl
    env := s.env.cfg_advances s.ctx v.env
    bq := .zipWith hbq fun u => u.cfg_advances s.ctx
    svf := .zipWith hsvf fun u => u.cfg_advances s.ctx
    gate := s.gate.cfg_advances s.ctx v.gate
    agc := s.agc.cfg_advances s.ctx v.agc
    deess := s.deess.cfg_advances s.ctx v.deess
    comp := s.comp.cfg_advances s.ctx v.comp
    fet := s.fet.cfg_advances s.ctx v.fet
    sat := s.sat.cfg_advances s.params v.sat
    pitch := s.pitch.cfg_advances s.ctx v.pitch
    dly := s.dly.cfg_advances s.ctx v.dly
    rvs := s.rvs.cfg_advances s.params v.rvs
    fdn := s.fdn.cfg_advances s.ctx v.fdn
    wid := s.wid.cfg_advances s.ctx v.wid
    os := .refl s.os
    lim := s.lim.cfg_advances s.ctx v.lim
    xn := s.xn.cfg_advances s.ctx v.xn
    pipe := s.pipe.cfg_advances hpipe }

end Sys2Proof.Machine
end

section
/-! The invariants of the block (rules R31 to R33, R386, R387): every step keeps the number of instances and copies,
the `CONFIGURED` bits, the activity of all units under an active PIPE and a legal Pipeline Configuration, and the reset
state has them. -/

namespace Sys2Proof.Machine

/-! ### What the movement of the units carries over -/

section
variable {s t : State}

theorem State.UnitsAdvance.copiesOk (h : s.UnitsAdvance t) (hs : s.copiesOk) : t.copiesOk := by
  obtain ⟨henv, ⟨hbq, hbqs⟩, ⟨hsvf, hsvfs⟩, hgate, hagc, hdeess, hcomp, hfet, hsat, hpitch, hdly, hrvs, hfdn, hwid, hos,
    hlim, hxn⟩ := State.copiesOk_iff.1 hs
  rw [State.copiesOk_iff, h.params]
  exact ⟨h.env.fits henv, ⟨h.bq.length hbq, h.bq.forall_mem (fun _ _ huv => huv.fits) hbqs⟩,
    ⟨h.svf.length hsvf, h.svf.forall_mem (fun _ _ huv => huv.fits) hsvfs⟩, h.gate.fits hgate, h.agc.fits hagc,
    h.deess.fits hdeess, h.comp.fits hcomp, h.fet.fits hfet, h.sat.fits hsat, h.pitch.fits hpitch, h.dly.fits hdly,
    h.rvs.fits hrvs, h.fdn.fits hfdn, h.wid.fits hwid, h.os.fits hos, h.lim.fits hlim, h.xn.fits hxn⟩

theorem State.UnitsAdvance.unitsActive (h : s.UnitsAdvance t) (hs : s.unitsActive) : t.unitsActive := by
  obtain ⟨henv, hbq, hsvf, hgate, hagc, hdeess, hcomp, hfet, hsat, hpitch, hdly, hrvs, hfdn, hwid, hos, hlim, hxn⟩ := hs
  exact ⟨h.env.within.1 henv, h.bq.forall_mem (fun _ _ huv => huv.within.1) hbq,
    h.svf.forall_mem (fun _ _ huv => huv.within.1) hsvf, h.gate.within.1 hgate, h.agc.within.1 hagc,
    h.deess.within.1 hdeess, h.comp.within.1 hcomp, h.fet.within.1 hfet, h.sat.within.1 hsat, h.pitch.within.1 hpitch,
    h.dly.within.1 hdly, h.rvs.within.1 hrvs, h.fdn.within.1 hfdn, h.wid.within.1 hwid, h.os.within.1 hos,
    h.lim.within.1 hlim, h.xn.within.1 hxn⟩

/-- Every `CONFIGURED` bit of the units is still set, and PIPE's where it is. -/
theorem State.UnitsAdvance.configuredWithin (h : s.UnitsAdvance t) (hs : s.copiesOk)
    (hpipe : s.pipe.life.configured = true → t.pipe.life.configured = true) : s.configuredWithin t := by
  obtain ⟨-, ⟨hbq, -⟩, ⟨hsvf, -⟩, -⟩ := State.copiesOk_iff.1 hs
  exact ⟨h.env.within.2, h.bq.configured hbq, h.svf.configured hsvf, h.gate.within.2, h.agc.within.2, h.deess.within.2,
    h.comp.within.2, h.fet.within.2, h.sat.within.2, h.pitch.within.2, h.dly.within.2, h.rvs.within.2, h.fdn.within.2,
    h.wid.within.2, h.os.within.2, h.lim.within.2, h.xn.within.2, hpipe⟩

end

/-! ### The invariants from state to state -/

/-- The way from `s` to `t` keeps the invariants of this section. -/
structure State.Transits (s t : State) : Prop where
  copies : s.copiesOk → t.copiesOk
  configured : s.copiesOk → s.configuredWithin t
  activity : s.pipeImpliesUnits → t.pipeImpliesUnits
  legal : s.pipeLegal → t.pipeLegal

theorem State.Advances.transits {s t : State} (h : s.Advances t) : s.Transits t where
  copies := h.copiesOk
  configured hs := h.configuredWithin hs h.pipe.configured
  activity hs ht := h.unitsActive (hs (h.pipe.active ht))
  legal hs := by
    rw [State.pipeLegal, h.params]
    exact h.pipe.legal hs

/-! ### RST of PIPE and DEINIT -/

/-- Every unit is reset, so every unit is active afterwards (rule R386). -/
theorem State.pipeRst_gives (s : State) (os : Bool) (fs : F32) : Gives
    (fun t => s.UnitsAdvance t ∧ t.unitsActive ∧ t.pipe = s.pipe.restart os fs) (s.pipeRst os fs) :=
  .after fun _ => .after fun _ =>
  (s.gate.rst_advances s.ctx _).bind fun _ hgate =>
  (s.agc.rst_advances s.ctx _).bind fun _ hagc =>
  (s.pitch.rst_advances s.ctx _).bind fun _ hpitch =>
  (s.deess.rst_advances s.ctx _).bind fun _ hdeess =>
  (s.comp.rst_advances s.ctx _).bind fun _ hcomp =>
  (s.fet.rst_advances s.ctx _).bind fun _ hfet =>
  (s.sat.rst_advances s.ctx _).bind fun _ hsat =>
  (s.env.rst_advances s.ctx fs).bind fun _ henv =>
  (s.dly.rst_advances s.ctx fs).bind fun _ hdly =>
  (s.rvs.rst_advances s.ctx fs).bind fun _ hrvs =>
  (s.fdn.rst_advances s.ctx fs).bind fun _ hfdn =>
  (s.wid.rst_advances s.ctx fs).bind fun _ hwid =>
  (s.lim.rst_advances s.ctx fs).bind fun _ hlim =>
  (s.xn.rst_advances s.ctx fs).bind fun _ hxn =>
  have hos := s.os.rst_advances s.ctx
  .ok ⟨⟨rfl, henv.1, .map (Bq.reset_advances s.ctx _), .map (Svf.reset_advances s.ctx _), hgate.1, hagc.1, hdeess.1,
      hcomp.1, hfet.1, hsat.1, hpitch.1, hdly.1, hrvs.1, hfdn.1, hwid.1, hos.1, hlim.1, hxn.1⟩,
    ⟨henv.2, List.forall_mem_map.2 fun _ _ => by simp [Bq.reset],
      List.forall_mem_map.2 fun _ _ => by simp [Svf.reset],
      hgate.2, hagc.2, hdeess.2, hcomp.2, hfet.2, hsat.2, hpitch.2, hdly.2, hrvs.2, hfdn.2, hwid.2, hos.2, hlim.2,
      hxn.2⟩, rfl⟩

/-- `PIPE.RST` makes PIPE active with all units, and leaves its configuration (rule R386). -/
theorem State.pipeRst_transits (s : State) (os : Bool) (fs : F32) : Leads State.Transits id s (s.pipeRst os fs) := by
  intro t ht
  obtain ⟨hunits, hactive, hpipe⟩ := s.pipeRst_gives os fs t ht
  refine ⟨hunits.copiesOk, fun hs => hunits.configuredWithin hs ?_, fun _ _ => hactive, fun hs => ?_⟩
  · rw [hpipe]
    exact id
  · rw [State.pipeLegal, id, hunits.params, hpipe]
    exact hs

/-- `PIPE.DEINIT` clears `ACTIVE` of every unit and nothing else (rule R396). -/
theorem State.deinit_transits (s : State) : s.Transits s.deinit where
  copies hs := by
    obtain ⟨henv, ⟨hbq, hbqs⟩, ⟨hsvf, hsvfs⟩, hrest⟩ := State.copiesOk_iff.1 hs
    exact State.copiesOk_iff.2 ⟨henv, ⟨(List.length_map ..).trans hbq, List.forall_mem_map.2 hbqs⟩,
      ⟨(List.length_map ..).trans hsvf, List.forall_mem_map.2 hsvfs⟩, hrest⟩
  configured _ := by
    refine ⟨id, fun i h => ?_, fun i h => ?_, id, id, id, id, id, id, id, id, id, id, id, id, id, id, id⟩
    · rwa [State.deinit, List.map_map]
    · rwa [State.deinit, List.map_map]
  activity _ := nofun
  legal := id

/-! ### Every command -/

/-- The outcome `o` of a command at `s` is the end of a computation whose states `R` reaches from `s`. -/
def Reaches (R : State → State → Prop) (s : State) (o : Host.Outcome State Fault Refusal) : Prop :=
  ∃ x : Except Raised (State × List Word), o = conclude s x ∧ Leads R Prod.fst s x

/-- A command that checks nothing: it completes at a state that `R` reaches. -/
theorem Reaches.next {R : State → State → Prop} {s t : State} {results : List Word} (h : R s t) :
    Reaches R s (.next (t.complete results)) := ⟨.ok (t, results), rfl, .ok h⟩

/-- What `R` reaches from `s` before the command ends, `S` reaches after it, if completing and raising do not matter. -/
theorem Reaches.ends {R S : State → State → Prop} {s t : State} {o : Host.Outcome State Fault Refusal}
    (h : Reaches R s o) (ho : o = .next t) (hc : ∀ u results, R s u → S s (u.complete results))
    (hr : ∀ r, S s (s.raise r)) : S s t := by
  obtain ⟨x, hx, hR⟩ := h
  rcases conclude_eq_next (hx.symm.trans ho) with ⟨u, results, hu, rfl⟩ | ⟨r, -, rfl⟩
  · exact hc u results (hR _ hu)
  · exact hr r

/-- Every command but RST of PIPE and DEINIT, by the shape of its meaning: a new value of one unit, with or without a
check before it, or an operation of PIPE on the units. -/
theorem exec_advances (i : Instr) (s : State) (hrst : ∀ os fs, i ≠ .pipeRst os fs) (hdeinit : i ≠ .pipeDeinit) :
    Reaches State.Advances s (exec i s) := by
  have ops := State.Advances.respected
  cases i with
  | pipeRst os fs => exact absurd rfl (hrst os fs)
  | pipeDeinit => exact absurd rfl hdeinit
  | envRst fs => exact ⟨_, rfl, (s.env.rst_advances s.ctx fs).bind fun _ h => .ok (s.advances_env h.1)⟩
  | gateRst fs => exact ⟨_, rfl, (s.gate.rst_advances s.ctx fs).bind fun _ h => .ok (s.advances_gate h.1)⟩
  | agcRst fs => exact ⟨_, rfl, (s.agc.rst_advances s.ctx fs).bind fun _ h => .ok (s.advances_agc h.1)⟩
  | deessRst fs => exact ⟨_, rfl, (s.deess.rst_advances s.ctx fs).bind fun _ h => .ok (s.advances_deess h.1)⟩
  | compRst fs => exact ⟨_, rfl, (s.comp.rst_advances s.ctx fs).bind fun _ h => .ok (s.advances_comp h.1)⟩
  | fetRst fs => exact ⟨_, rfl, (s.fet.rst_advances s.ctx fs).bind fun _ h => .ok (s.advances_fet h.1)⟩
  | satRst fs => exact ⟨_, rfl, (s.sat.rst_advances s.ctx fs).bind fun _ h => .ok (s.advances_sat h.1)⟩
  | pitchRst fs => exact ⟨_, rfl, (s.pitch.rst_advances s.ctx fs).bind fun _ h => .ok (s.advances_pitch h.1)⟩
  | dlyRst fs => exact ⟨_, rfl, (s.dly.rst_advances s.ctx fs).bind fun _ h => .ok (s.advances_dly h.1)⟩
  | rvsRst fs => exact ⟨_, rfl, (s.rvs.rst_advances s.ctx fs).bind fun _ h => .ok (s.advances_rvs h.1)⟩
  | fdnRst fs => exact ⟨_, rfl, (s.fdn.rst_advances s.ctx fs).bind fun _ h => .ok (s.advances_fdn h.1)⟩
  | widRst fs => exact ⟨_, rfl, (s.wid.rst_advances s.ctx fs).bind fun _ h => .ok (s.advances_wid h.1)⟩
  | limRst fs => exact ⟨_, rfl, (s.lim.rst_advances s.ctx fs).bind fun _ h => .ok (s.advances_lim h.1)⟩
  | xnRst fs => exact ⟨_, rfl, (s.xn.rst_advances s.ctx fs).bind fun _ h => .ok (s.advances_xn h.1)⟩
  | osRst => exact .next (s.advances_os (s.os.rst_advances s.ctx).1)
  | bqRst fs => exact ⟨_, rfl, (s.bqRst_advances fs).bind fun _ h => .ok h⟩
  | svfRst fs => exact ⟨_, rfl, (s.svfRst_advances fs).bind fun _ h => .ok h⟩
  | envCfg => exact .next (s.advances_env (s.env.cfg_advances s.ctx _))
  | gateCfg => exact .next (s.advances_gate (s.gate.cfg_advances s.ctx _))
  | agcCfg => exact .next (s.advances_agc (s.agc.cfg_advances s.ctx _))
  | deessCfg => exact .next (s.advances_deess (s.deess.cfg_advances s.ctx _))
  | compCfg => exact .next (s.advances_comp (s.comp.cfg_advances s.ctx _))
  | fetCfg => exact .next (s.advances_fet (s.fet.cfg_advances s.ctx _))
  | satCfg => exact .next (s.advances_sat (s.sat.cfg_advances s.params _))
  | pitchCfg => exact .next (s.advances_pitch (s.pitch.cfg_advances s.ctx _))
  | dlyCfg => exact .next (s.advances_dly (s.dly.cfg_advances s.ctx _))
  | rvsCfg => exact .next (s.advances_rvs (s.rvs.cfg_advances s.params _))
  | fdnCfg => exact .next (s.advances_fdn (s.fdn.cfg_advances s.ctx _))
  | widCfg => exact .next (s.advances_wid (s.wid.cfg_advances s.ctx _))
  | limCfg => exact .next (s.advances_lim (s.lim.cfg_advances s.ctx _))
  | xnCfg => exact .next (s.advances_xn (s.xn.cfg_advances s.ctx _))
  | bqCfg b => exact ⟨_, rfl, .after fun _ => .ok (s.advances_setBq ((s.bqAt b.toNat).cfg_advances s.ctx _))⟩
  | svfCfg b => exact ⟨_, rfl, .after fun _ => .ok (s.advances_setSvf ((s.svfAt b.toNat).cfg_advances s.ctx _))⟩
  | envProc ch x =>
    exact ⟨_, rfl, .after fun _ => (s.env.proc_advances s.ctx _ x).bind fun _ h => .ok (s.advances_env h)⟩
  | gateProc ch x => exact ⟨_, rfl, .after fun _ => (ops.gateProc s _ x).bind fun _ h => .ok h⟩
  | agcProc ch x => exact ⟨_, rfl, .after fun _ => (ops.agcProc s _ x).bind fun _ h => .ok h⟩
  | deessProc ch x => exact ⟨_, rfl, .after fun _ => (ops.deessProc s _ x).bind fun _ h => .ok h⟩
  | compProc ch x => exact ⟨_, rfl, .after fun _ => (ops.compProc s _ x).bind fun _ h => .ok h⟩
  | fetProc ch x => exact ⟨_, rfl, .after fun _ => (ops.fetProc s _ x).bind fun _ h => .ok h⟩
  | satProc ch x => exact ⟨_, rfl, .after fun _ => (ops.satProc s _ x).bind fun _ h => .ok h⟩
  | pitchProc ch x => exact ⟨_, rfl, .after fun _ => (ops.pitchProc s _ x).bind fun _ h => .ok h⟩
  | dlyProc ch x => exact ⟨_, rfl, .after fun _ => (ops.dlyProc s _ x).bind fun _ h => .ok h⟩
  | rvsProc ch x => exact ⟨_, rfl, .after fun _ => (ops.rvsProc s _ x).bind fun _ h => .ok h⟩
  | fdnProc ch x => exact ⟨_, rfl, .after fun _ => (ops.fdnProc s _ x).bind fun _ h => .ok h⟩
  | limProc ch x => exact ⟨_, rfl, .after fun _ => (ops.limProc s _ x).bind fun _ h => .ok h⟩
  | bqProc ch b x => exact ⟨_, rfl, .after fun _ => (ops.bqProc s _ _ x).bind fun _ h => .ok h⟩
  | svfProc ch b x => exact ⟨_, rfl, .after fun _ => (ops.svfProc s _ _ x).bind fun _ h => .ok h⟩
  | widProc ch l r => exact ⟨_, rfl, .after fun _ => (ops.widProc s _ l r).bind fun _ h => .ok h⟩
  | osUp ch x => exact ⟨_, rfl, .after fun _ => (ops.osUp s _ x).bind fun _ h => .ok h⟩
  | osDown ch u0 u1 u2 u3 => exact ⟨_, rfl, .after fun _ => (ops.osDown s _ u0 u1 u2 u3).bind fun _ h => .ok h⟩
  | xnAcc ch x => exact ⟨_, rfl, .after fun _ => (ops.xnAcc s _ x).bind fun _ h => .ok h⟩
  | xnAnalyze => exact ⟨_, rfl, (ops.xnAnalyze s).bind fun _ h => .ok h⟩
  | agcExt m v => exact ⟨_, rfl, (ops.agcExt s m v).bind fun _ h => .ok h⟩
  | fetThoff v => exact ⟨_, rfl, (ops.fetThoff s v).bind fun _ h => .ok h⟩
  | satDscale v => exact ⟨_, rfl, (ops.satDscale s v).bind fun _ h => .ok h⟩
  | bqGoff b v => exact ⟨_, rfl, (ops.bqGoff s _ v).bind fun _ h => .ok h⟩
  | svfGoff b v => exact ⟨_, rfl, (ops.svfGoff s _ v).bind fun _ h => .ok h⟩
  | pipeCfg en sel k e m => exact ⟨_, rfl, (s.pipeCfg_advances ⟨en, sel, k, e, m⟩).bind fun _ h => .ok h⟩
  | pipeFrame xs => exact ⟨_, rfl, .after fun _ => ops.pipeFrame s xs⟩
  | pipeBegin => exact ⟨_, rfl, (ops.pipeBegin s).bind fun _ h => .ok h⟩
  | pipeEnd => exact ⟨_, rfl, (ops.pipeEnd s).bind fun _ h => .ok h⟩
  | pipeSave => exact ⟨_, rfl, .after fun _ => .after fun _ => .ok (.refl s)⟩
  | pipeRestore n ws =>
    exact ⟨_, rfl, .after fun _ => (streamOf_gives s.params n ws).bind fun _ h => .ok (s.restored_advances h)⟩
  | rd => exact ⟨_, rfl, .after fun _ => .ok (.refl s)⟩
  | wr u ch idx reg v => exact ⟨_, rfl, (s.writeReg_advances u _ _ _ v).bind fun _ h => .ok h⟩

/-- Raising moves no unit: of PIPE it touches `STATUS` alone (rules R69, R425). -/
theorem State.raise_advances (s : State) (r : Raised) : s.Advances (s.raise r) :=
  { State.Advances.refl s with pipe := .of_life rfl id }

/-- Every command keeps the invariants. -/
theorem exec_transits {i : Instr} {s t : State} (h : exec i s = .next t) : s.Transits t := by
  have hcommand : Reaches State.Transits s (exec i s) := by
    by_cases hrst : ∃ os fs, i = .pipeRst os fs
    · obtain ⟨os, fs, rfl⟩ := hrst
      exact ⟨_, rfl, (s.pipeRst_transits os fs).bind fun _ h => .ok h⟩
    · by_cases hdeinit : i = .pipeDeinit
      · subst hdeinit
        exact ⟨_, rfl, .after fun _ => .ok s.deinit_transits⟩
      · obtain ⟨x, hx, hadv⟩ := exec_advances i s (fun os fs hi => hrst ⟨os, fs, hi⟩) hdeinit
        exact ⟨x, hx, fun a ha => (hadv a ha).transits⟩
  exact hcommand.ends h (fun u _ hu => ⟨hu.copies, hu.configured, hu.activity, hu.legal⟩)
    fun r => (s.raise_advances r).transits

/-- Every step keeps the invariants: it waits, drops an illegal command word, or runs a command. -/
theorem step_transits {s t : State} (h : step s = .next t) : s.Transits t := by
  rcases step_eq_next h with rfl | ⟨_, n, -, rfl⟩ | ⟨i, rest, -, hi⟩
  · exact (State.Advances.refl t).transits
  · exact { (s.raise_advances .illegal).transits with }
  · exact { exec_transits hi with }

/-- Settles O11, from what every step keeps. -/
theorem stepKeepsThePipelineInvariants : Obligations.StepKeepsThePipelineInvariants := fun _ _ h =>
  ⟨(step_transits h).activity, (step_transits h).legal⟩

/-- Settles O12, from what every step keeps. -/
theorem stepKeepsInstancesAndCopies : Obligations.StepKeepsInstancesAndCopies := fun _ _ hs h =>
  (step_transits h).copies hs

/-- Settles O13, from what every step keeps. -/
theorem configuredIsNeverCleared : Obligations.ConfiguredIsNeverCleared := fun _ _ hs h =>
  (step_transits h).configured hs

/-! ### Power-on -/

/-- A memory with no size yet is canonical, and no cursor of an inactive unit is bound to it. -/
theorem ringOk_unsized (cursor : Word) : ringOk false Memory.unsized cursor := ⟨rfl, nofun⟩

/-- At power-on no memory has a size (rules R80, R451). -/
theorem State.powerOn_ringsOk (p : Params) : (State.powerOn p).ringsOk := by
  simp [State.ringsOk, State.powerOn, rvsRingsOk, fdnRingsOk, ringOk_unsized, Life.off]

/-- The block has its instances and copies from power-on (rules R31, R32, R451). -/
theorem State.powerOn_copiesOk (p : Params) : (State.powerOn p).copiesOk := by
  simp [State.copiesOk, State.powerOn, Bq.powerOn, Svf.powerOn]

/-- Settles O14: PIPE is neither active nor configured at power-on, and the standard build meets the constraints. -/
theorem resetSatisfiesTheInvariants : Obligations.ResetSatisfiesTheInvariants :=
  ⟨State.powerOn_ringsOk _, nofun, State.powerOn_copiesOk _, nofun, rfl, by decide⟩

end Sys2Proof.Machine
end

section
/-! Ring memories under a run of writes (rules R80, R84, R85): a write at the cursor keeps the memory and the cursor as
they must be, and the word written `k` samples ago is found `k` cells behind the cursor. -/

namespace Sys2Proof.Machine

/-! ### A run of writes -/

theorem ringRun_cap (m : Memory) (w : Word) (xs : List Word) : (ringRun m w xs).1.cap = m.cap := by
  induction xs generalizing m w with
  | nil => rfl
  | cons x xs ih => exact ih (m.write w.toNat x) _

theorem nextCursor_toNat {w : Word} {cap : Nat} (h : 0 < cap) (hcap : cap ≤ 2 ^ 32) :
    (nextCursor w cap).toNat = (w.toNat + 1) % cap := by
  rw [nextCursor, BitVec.toNat_ofNat, Nat.mod_eq_of_lt ((Nat.mod_lt _ h).trans_le hcap)]

/-- Every sample moves the cursor on by one cell, around the ring (rule R85). -/
theorem ringRun_cursor {m : Memory} {w : Word} (xs : List Word) (hw : w.toNat < m.cap) (hcap : m.cap ≤ 2 ^ 32) :
    (ringRun m w xs).2.toNat = (w.toNat + xs.length) % m.cap := by
  induction xs generalizing m w with
  | nil => exact (Nat.mod_eq_of_lt hw).symm
  | cons x xs ih =>
    have hpos : 0 < m.cap := Nat.zero_lt_of_lt hw
    calc (ringRun (m.write w.toNat x) (nextCursor w m.cap) xs).2.toNat
        = ((nextCursor w m.cap).toNat + xs.length) % m.cap := ih (m := m.write w.toNat x) (nextCursor_lt hpos) hcap
      _ = (w.toNat + (x :: xs).length) % m.cap := by
        rw [nextCursor_toNat hpos hcap, Nat.mod_add_mod, List.length_cons, Nat.add_assoc, Nat.add_comm 1]

/-- A cell that the run does not reach holds what it held. -/
theorem ringRun_read {m : Memory} {w : Word} {j : Nat} (xs : List Word) (hwf : m.wf = true) (hw : w.toNat < m.cap)
    (hcap : m.cap ≤ 2 ^ 32) (hj : ∀ k < xs.length, j % m.cap ≠ (w.toNat + k) % m.cap) :
    (ringRun m w xs).1.read j = m.read j := by
  induction xs generalizing m w with
  | nil => rfl
  | cons x xs ih =>
    have hpos : 0 < m.cap := Nat.zero_lt_of_lt hw
    have hlater : ∀ k < xs.length, j % m.cap ≠ ((nextCursor w m.cap).toNat + k) % m.cap := by
      intro k hk
      rw [nextCursor_toNat hpos hcap, Nat.mod_add_mod, Nat.add_assoc, Nat.add_comm 1]
      exact hj (k + 1) (Nat.succ_lt_succ hk)
    calc (ringRun (m.write w.toNat x) (nextCursor w m.cap) xs).1.read j
        = (m.write w.toNat x).read j :=
          ih (m := m.write w.toNat x) (Memory.write_wf hpos hwf) (nextCursor_lt hpos) hcap hlater
      _ = m.read j := by rw [Memory.read_write hwf, if_neg (by simpa using hj 0 (Nat.succ_pos _))]

/-- Up to a whole turn behind the cursor lies the cell from which the cursor set out. -/
theorem cell_behind {w n cap : Nat} (hw : w < cap) (hn : n ≤ cap) :
    ((w + n) % cap + cap - n % cap) % cap = w := by
  rcases Nat.lt_or_eq_of_le hn with hlt | rfl
  · have hmod : n % cap = n := Nat.mod_eq_of_lt hlt
    rcases Nat.lt_or_ge (w + n) cap with h | h
    · rw [Nat.mod_eq_of_lt h, hmod, show w + n + cap - n = w + cap by omega, Nat.add_mod_right, Nat.mod_eq_of_lt hw]
    · have hturn : (w + n) % cap = w + n - cap := by rw [Nat.mod_eq_sub_mod h, Nat.mod_eq_of_lt (by omega)]
      rw [hturn, hmod, show w + n - cap + cap - n = w by omega, Nat.mod_eq_of_lt hw]
  · simp [Nat.mod_eq_of_lt hw]

/-- Fewer steps than a whole turn do not come back to the cell where they began. -/
theorem cell_ne_of_turn {w k cap : Nat} (hk : k + 1 < cap) : w % cap ≠ (w + 1 + k) % cap := by
  intro h
  have hdvd : cap ∣ w + 1 + k - w := (Nat.modEq_iff_dvd' (by omega)).1 h
  exact absurd (Nat.le_of_dvd (by omega) hdvd) (by omega)

/-- Settles O44: the later writes of the run do not reach the cell, and the cursor stands where it began plus the
length of the run. -/
theorem ringReturnsTheSampleWrittenBefore : Obligations.RingReturnsTheSampleWrittenBefore := by
  intro m w x xs hwf hw hcap hlen
  have hpos : 0 < m.cap := Nat.zero_lt_of_lt hw
  have hcursor := ringRun_cursor (x :: xs) hw hcap
  have hcell : ((ringRun m w (x :: xs)).2.toNat + m.cap - (xs.length + 1) % m.cap) % m.cap = w.toNat := by
    rw [hcursor]
    exact cell_behind hw hlen
  have hkept : (ringRun (m.write w.toNat x) (nextCursor w m.cap) xs).1.read w.toNat =
      (m.write w.toNat x).read w.toNat :=
    ringRun_read (m := m.write w.toNat x) xs (Memory.write_wf hpos hwf) (nextCursor_lt hpos) hcap fun k hk => by
      rw [Memory.write_cap, nextCursor_toNat hpos hcap, Nat.mod_add_mod]
      exact cell_ne_of_turn (by omega)
  rw [Memory.back, ringRun_cap, hcell]
  exact hkept.trans (by rw [Memory.read_write hwf, if_pos rfl])

end Sys2Proof.Machine
end

section
/-! Every step keeps the ring memories (rules R80, R81, R83, R85): canonical, as long as their length registers say,
with every cursor of an active unit inside its memory; unit by unit, operation by operation, then command by command. -/

namespace Sys2Proof.Machine

/-! ### One ring -/

/-- RST leaves a ring with its cursor on the first cell (rule R83). -/
theorem ringOk_sized {active : Bool} {cap : Nat} (h : 0 < cap) : ringOk active (Memory.sized cap) 0 :=
  ⟨rfl, fun _ => h⟩

/-- A write at any cell, after which the cursor moves on (rule R85). -/
theorem ringOk.write {active : Bool} {m : Memory} {w : Word} (h : ringOk active m w) (ha : active = true) (i : Nat)
    (v : Word) : ringOk active (m.write i v) (nextCursor w m.cap) :=
  have hcap : 0 < m.cap := Nat.zero_lt_of_lt (h.2 ha)
  ⟨Memory.write_wf hcap h.1, fun _ => nextCursor_lt hcap⟩

/-- WR puts a cursor on a cell of its memory (rule R71). -/
theorem ringOk.setCursor {active : Bool} {m : Memory} {w v v' : Word} (h : ringOk active m w)
    (hv : cursorOf m.cap v = some v') : ringOk active m v' := by
  obtain ⟨hlt, rfl⟩ := cursorOf_eq_some.1 hv
  exact ⟨h.1, fun _ => hlt⟩

/-- No cursor of an inactive unit is bound to its memory. -/
theorem ringOk.inactive {active : Bool} {m : Memory} {w : Word} (h : ringOk active m w) : ringOk false m w :=
  ⟨h.1, nofun⟩

/-! ### The rings of a unit -/

def Pitch.ringsOk (u : Pitch) : Prop := ∀ c ∈ u.ch, ringOk u.life.active c.mem c.wpos
def Dly.ringsOk (u : Dly) : Prop := ∀ c ∈ u.ch, ringOk u.life.active c.mem c.wpos
def Rvs.ringsOk (u : Rvs) : Prop := ∀ c ∈ u.ch, rvsRingsOk u.life.active u.clen u.alen c
def Fdn.ringsOk (u : Fdn) : Prop := ∀ c ∈ u.ch, fdnRingsOk u.life.active c
def Lim.ringsOk (u : Lim) : Prop := ∀ c ∈ u.ch, ringOk u.life.active c.lb c.wpos

theorem State.ringsOk_iff {s : State} : s.ringsOk ↔
    s.pitch.ringsOk ∧ s.dly.ringsOk ∧ s.rvs.ringsOk ∧ s.fdn.ringsOk ∧ s.lim.ringsOk := Iff.rfl

/-! ### RST: every ring sized, every cursor on the first cell (rules R81, R83) -/

theorem Pitch.rst_ringsOk (p : Ctx) (u : Pitch) (fs : F32) : Gives Pitch.ringsOk (u.rst p fs) := by
  refine .after fun _ => .ok ?_
  rw [Pitch.derive_eq]
  intro c hc
  rw [mem_perChannel hc]
  exact ringOk_sized (Nat.succ_pos _)

theorem Lim.rst_ringsOk (p : Ctx) (u : Lim) (fs : F32) : Gives Lim.ringsOk (u.rst p fs) := by
  refine .after fun _ => .ok ?_
  rw [Lim.derive_eq]
  intro c hc
  rw [mem_perChannel hc]
  exact ringOk_sized (Nat.succ_pos _)

/-- The snap rule moves `CURRENT` only (rule R296). -/
theorem Dly.jump_ringsOk {u : Dly} (h : u.ringsOk) : u.jump.ringsOk := List.forall_mem_map.2 h

theorem Dly.rst_ringsOk (p : Ctx) (u : Dly) (fs : F32) : Gives Dly.ringsOk (u.rst p fs) := by
  refine .after fun _ => .ok ?_
  have hfresh : (Dly.derive p { u with
      life := u.life.reset fs, snap := true, ch := perChannel p (DlyS.fresh (dlyCap p fs)) }).ringsOk := by
    rw [Dly.derive_eq]
    intro c hc
    rw [mem_perChannel hc]
    exact ringOk_sized (Nat.succ_pos _)
  unfold Dly.restart
  dsimp only
  split
  · exact Dly.jump_ringsOk hfresh
  · exact hfresh

theorem Fdn.rst_ringsOk (p : Ctx) (u : Fdn) (fs : F32) : Gives Fdn.ringsOk (u.rst p fs) := by
  refine .after fun _ => .ok ?_
  rw [Fdn.derive_eq]
  intro c hc
  rw [mem_perChannel hc]
  refine ⟨fun m hm => ?_, fun m hm => ?_⟩ <;> rw [List.eq_of_mem_replicate hm]
  · exact ringOk_sized (Nat.succ_pos _)
  · rfl

/-- No comb or allpass is empty (rule R312). -/
theorem rvsLen_pos (p : Ctx) (ref : Nat) (fs : F32) : 0 < (rvsLen p ref fs).toNat := by
  unfold rvsLen
  dsimp only
  split
  · decide
  · rename_i h
    exact Nat.pos_of_ne_zero fun h0 => h (BitVec.eq_of_toNat_eq h0)

theorem rvsClen_pos (p : Ctx) (fs : F32) : ∀ len ∈ rvsClen p fs, 0 < len.toNat :=
  List.forall_mem_map.2 fun _ _ => rvsLen_pos ..

theorem rvsAlen_pos (p : Ctx) (fs : F32) : ∀ len ∈ rvsAlen p fs, 0 < len.toNat := by
  refine List.forall_mem_map.2 fun j _ => ?_
  split
  · exact rvsLen_pos ..
  · decide

theorem RvsS.fresh_ringsOk {active : Bool} {clen alen : List Word} (hc : ∀ len ∈ clen, 0 < len.toNat)
    (ha : ∀ len ∈ alen, 0 < len.toNat) : rvsRingsOk active clen alen (RvsS.fresh clen alen) :=
  ⟨List.forall_mem_map.2 fun len h => ringOk_sized (hc len h),
    List.forall_mem_map.2 fun len h => ringOk_sized (ha len h), fun _ => by simp [RvsS.fresh, RvsComb.fresh],
    fun _ => by simp [RvsS.fresh, RvsAp.fresh]⟩

theorem Rvs.rst_ringsOk (p : Ctx) (u : Rvs) (fs : F32) : Gives Rvs.ringsOk (u.rst p fs) := by
  refine .after fun _ => .ok fun c hc => ?_
  rw [mem_perChannel hc]
  exact RvsS.fresh_ringsOk (rvsClen_pos p fs) (rvsAlen_pos p fs)

/-! ### CFG: no ring and no cursor touched -/

theorem Pitch.cfg_ringsOk (p : Ctx) {u : Pitch} (P : PitchP) (h : u.ringsOk) : (u.cfg p P).ringsOk := by
  rw [Pitch.cfg_eq]
  exact h

theorem Dly.cfg_ringsOk (p : Ctx) {u : Dly} (P : DlyP) (h : u.ringsOk) : (u.cfg p P).ringsOk := by
  have hderived : (Dly.derive p { u with P := P, life := u.life.configure }).ringsOk := by
    rw [Dly.derive_eq]
    exact h
  unfold Dly.cfg
  dsimp only
  split
  · exact Dly.jump_ringsOk hderived
  · exact hderived

theorem Rvs.cfg_ringsOk {u : Rvs} (P : RvsP) (h : u.ringsOk) : (u.cfg P).ringsOk := h

theorem Fdn.cfg_ringsOk (p : Ctx) {u : Fdn} (P : FdnP) (h : u.ringsOk) : (u.cfg p P).ringsOk := by
  rw [Fdn.cfg_eq]
  exact h

theorem Lim.cfg_ringsOk (p : Ctx) {u : Lim} (P : LimP) (h : u.ringsOk) : (u.cfg p P).ringsOk := by
  rw [Lim.cfg_eq]
  exact h

/-! ### PROC: one cell written, the cursor moved on (rule R85) -/

/-- Behind its check, a PROC runs on an active unit (rule R424). -/
theorem Gives.afterReady {α : Type} {S : α → Prop} {l : Life} {f : Unit → Except Raised α}
    (hf : ∀ v, l.active = true → Gives S (f v)) : Gives S (l.needReady >>= f) :=
  Gives.bind (Q := fun _ => l.active = true) (fun _ h => (Life.needReady_eq_ok.1 h).1) hf

theorem Pitch.proc_ringsOk (p : Ctx) (u : Pitch) (c : Nat) (x : F32) :
    Gives (fun r => u.ringsOk → r.1.ringsOk) (u.proc p c x) :=
  .afterReady fun _ ha => .ok fun h =>
    forall_mem_set h (f := fun t => (pitchStep p u.C t x).1) fun _ ht => ht.write ha _ _

theorem Dly.proc_ringsOk (p : Ctx) (u : Dly) (c : Nat) (x : F32) :
    Gives (fun r => u.ringsOk → r.1.ringsOk) (u.proc p c x) :=
  .afterReady fun _ ha => .ok fun h =>
    forall_mem_set h (f := fun t => (dlyStep p u.P u.target t x).1) fun _ ht => ht.write ha _ _

theorem Lim.proc_ringsOk (p : Ctx) (u : Lim) (c : Nat) (x : F32) :
    Gives (fun r => u.ringsOk → r.1.ringsOk) (u.proc p c x) :=
  .afterReady fun _ ha => .ok fun h =>
    forall_mem_set h (f := fun t => (limStep p u.C t x).1) fun _ ht => ht.write ha _ _

/-- The comb that follows the cursor by its length register follows it by its memory's capacity (rule R81). -/
theorem combBank_ringsOk (p : Ctx) (P : RvsP) (x : F32) (lens : List Word) (cs : List RvsComb) (acc : F32)
    (h : ∀ k ∈ cs, ringOk true k.mem k.idx) (hcap : cs.map (fun k => k.mem.cap) = lens.map BitVec.toNat) :
    (∀ k ∈ (combBank p P x lens cs acc).1, ringOk true k.mem k.idx) ∧
    (combBank p P x lens cs acc).1.map (fun k => k.mem.cap) = lens.map BitVec.toNat := by
  induction lens generalizing cs acc with
  | nil => exact ⟨h, hcap⟩
  | cons len lens ih =>
    cases cs with
    | nil => cases hcap
    | cons c cs =>
      obtain ⟨hlen, hrest⟩ := List.cons.inj hcap
      obtain ⟨hc, hcs⟩ := List.forall_mem_cons.1 h
      obtain ⟨hrings, hcaps⟩ := ih cs (p.add acc (combStep p P len x c).2) hcs hrest
      refine ⟨List.forall_mem_cons.2 ⟨?_, hrings⟩, congrArg₂ List.cons hlen hcaps⟩
      have hnext := hc.write rfl c.idx.toNat (p.add x (p.mul (combStep p P len x c).1.filt P.room))
      rw [show c.mem.cap = len.toNat from hlen] at hnext
      exact hnext

theorem allpassChain_ringsOk (p : Ctx) (n : Nat) (lens : List Word) (as : List RvsAp) (v : F32)
    (h : ∀ a ∈ as, ringOk true a.mem a.idx) (hcap : as.map (fun a => a.mem.cap) = lens.map BitVec.toNat) :
    (∀ a ∈ (allpassChain p n lens as v).1, ringOk true a.mem a.idx) ∧
    (allpassChain p n lens as v).1.map (fun a => a.mem.cap) = lens.map BitVec.toNat := by
  induction n generalizing lens as v with
  | zero => exact ⟨h, hcap⟩
  | succ n ih =>
    cases lens with
    | nil => exact ⟨h, hcap⟩
    | cons len lens =>
      cases as with
      | nil => cases hcap
      | cons a as =>
        obtain ⟨hlen, hrest⟩ := List.cons.inj hcap
        obtain ⟨ha, has⟩ := List.forall_mem_cons.1 h
        obtain ⟨hrings, hcaps⟩ := ih lens as (allpassStep p len v a).2 has hrest
        refine ⟨List.forall_mem_cons.2 ⟨?_, hrings⟩, congrArg₂ List.cons hlen hcaps⟩
        have hnext := ha.write rfl a.idx.toNat (p.add v (p.mul F32.half (a.mem.read a.idx.toNat)))
        rw [show a.mem.cap = len.toNat from hlen] at hnext
        exact hnext

theorem rvsStep_ringsOk (p : Ctx) (P : RvsP) {active : Bool} {clen alen : List Word} {s : RvsS} (x : F32)
    (ha : active = true) (h : rvsRingsOk active clen alen s) :
    rvsRingsOk active clen alen (rvsStep p P clen alen s x).1 := by
  subst ha
  obtain ⟨hcombs, haps, hclen, halen⟩ := h
  obtain ⟨hcombs', hclen'⟩ := combBank_ringsOk p P x clen s.combs F32.zero hcombs (hclen rfl)
  obtain ⟨haps', halen'⟩ := allpassChain_ringsOk p p.nap alen s.aps
    (p.div (combBank p P x clen s.combs F32.zero).2 F32.eight) haps (halen rfl)
  exact ⟨hcombs', haps', fun _ => hclen', fun _ => halen'⟩

theorem Rvs.proc_ringsOk (p : Ctx) (u : Rvs) (c : Nat) (x : F32) :
    Gives (fun r => u.ringsOk → r.1.ringsOk) (u.proc p c x) :=
  .afterReady fun _ ha => .ok fun h =>
    forall_mem_set h (f := fun t => (rvsStep p u.P u.clen u.alen t x).1) fun _ ht => rvsStep_ringsOk p u.P x ha ht

/-- Every line takes a write at the one cursor, and all have the length of the first (rule R325). -/
theorem fdnStep_ringsOk (p : Ctx) (P : FdnP) (C : FdnC) {active : Bool} {s : FdnS} (x : F32) (ha : active = true)
    (h : fdnRingsOk active s) : fdnRingsOk active (fdnStep p P C s x).1 := by
  obtain ⟨hrings, hcap⟩ := h
  have hline : ∀ m ∈ (fdnStep p P C s x).1.lb, ∃ m₀ ∈ s.lb, ∃ i v, m = m₀.write i v := by
    intro m hm
    obtain ⟨i, hi⟩ := List.mem_iff_getElem?.1 hm
    obtain ⟨m₀, l, hm₀, -, rfl⟩ := List.getElem?_zipWith_eq_some.1 hi
    exact ⟨m₀, List.mem_of_getElem? hm₀, _, _, rfl⟩
  refine ⟨fun m hm => ?_, fun m hm => ?_⟩
  · obtain ⟨m₀, hm₀, i, v, rfl⟩ := hline m hm
    have hnext := (hrings m₀ hm₀).write ha i v
    rw [hcap m₀ hm₀] at hnext
    exact hnext
  · have hhead : ∀ l : List Memory, (∀ m ∈ l, m.cap = (s.lb.headD Memory.unsized).cap) → ∀ m ∈ l,
        m.cap = (l.headD Memory.unsized).cap := by
      intro l hl m hm
      cases l with
      | nil => cases hm
      | cons m₁ l => exact (hl m hm).trans (hl m₁ (List.mem_cons_self ..)).symm
    refine hhead _ (fun m hm => ?_) m hm
    obtain ⟨m₀, hm₀, i, v, rfl⟩ := hline m hm
    exact hcap m₀ hm₀

theorem Fdn.proc_ringsOk (p : Ctx) (u : Fdn) (c : Nat) (x : F32) :
    Gives (fun r => u.ringsOk → r.1.ringsOk) (u.proc p c x) :=
  .afterReady fun _ ha => .ok fun h =>
    forall_mem_set h (f := fun t => (fdnStep p u.P u.C t x).1) fun _ ht => fdnStep_ringsOk p u.P u.C x ha ht

/-! ### WR: no ring touched, a cursor put inside its memory (rules R71, R401) -/

/-- A register in a channel, where its write keeps what the channels have. -/
theorem View.copy_keepsAll {U S : Type} {list : U → List S} {put : U → List S → U} {fresh : S} {get : S → Word}
    {set : S → Word → Option S} {Q : U → S → Prop} (hlist : ∀ u l, list (put u l) = l)
    (hput : ∀ u l a, Q u a → Q (put u l) a) (hset : ∀ u w a b, set a w = some b → Q u a → Q u b) :
    (View.copy list put fresh get set).Keeps fun u v => (∀ a ∈ list u, Q u a) → ∀ a ∈ list v, Q v a :=
  View.keeps_copy.2 fun u c w t ht h a ha => by
    rw [hlist] at ha
    exact hput _ _ _ (forall_mem_set_some (f := (set · w)) h (hset u w) ht a ha)

theorem pitchViews_keepRings : ∀ view ∈ pitchViews, view.Keeps fun u v => u.ringsOk → v.ringsOk := by
  simp only [pitchViews, List.forall_mem_cons, View.keeps_raw]
  refine ⟨fun _ _ => id, fun _ _ => id, fun _ _ => id, fun _ _ => id, fun _ _ => id,
    View.copy_keepsAll (fun _ _ => rfl) (fun _ _ _ => id) fun u w a b hb ha => ?_,
    View.copy_keepsAll (fun _ _ => rfl) (fun _ _ _ => id) fun u w a b hb ha => ?_, nofun⟩
  · obtain ⟨v, hv, rfl⟩ := Option.map_eq_some_iff.1 hb
    exact ha.setCursor hv
  · cases hb
    exact ha

theorem dlyViews_keepRings : ∀ view ∈ dlyViews, view.Keeps fun u v => u.ringsOk → v.ringsOk := by
  simp only [dlyViews, List.forall_mem_cons, View.keeps_raw]
  refine ⟨fun _ _ => id, fun _ _ => id, fun _ _ => id, fun _ _ => id,
    View.copy_keepsAll (fun _ _ => rfl) (fun _ _ _ => id) fun u w a b hb ha => ?_,
    View.copy_keepsAll (fun _ _ => rfl) (fun _ _ _ => id) fun u w a b hb ha => ?_, nofun⟩
  · cases hb
    exact ha
  · obtain ⟨v, hv, rfl⟩ := Option.map_eq_some_iff.1 hb
    exact ha.setCursor hv

theorem limViews_keepRings : ∀ view ∈ limViews, view.Keeps fun u v => u.ringsOk → v.ringsOk := by
  simp only [limViews, List.forall_mem_cons, View.keeps_raw]
  refine ⟨fun _ _ => id, fun _ _ => id, fun _ _ => id, fun _ _ => id, fun _ _ => id, View.keeps_fixed,
    View.copy_keepsAll (fun _ _ => rfl) (fun _ _ _ => id) fun u w a b hb ha => ?_,
    View.copy_keepsAll (fun _ _ => rfl) (fun _ _ _ => id) fun u w a b hb ha => ?_, nofun⟩
  · obtain ⟨v, hv, rfl⟩ := Option.map_eq_some_iff.1 hb
    exact ha.setCursor hv
  · cases hb
    exact ha

theorem fdnViews_keepRings : ∀ view ∈ fdnViews, view.Keeps fun u v => u.ringsOk → v.ringsOk := by
  simp only [fdnViews, List.forall_mem_append, List.forall_mem_map, List.forall_mem_cons, View.keeps_raw]
  refine ⟨⟨⟨⟨fun _ _ => id, fun _ _ => id, fun _ _ => id, fun _ _ => id, nofun⟩, fun _ _ => View.keeps_fixed⟩,
    View.copy_keepsAll (fun _ _ => rfl) (fun _ _ _ => id) fun u w a b hb ha => ?_, nofun⟩,
    fun j _ => View.copy_keepsAll (fun _ _ => rfl) (fun _ _ _ => id) fun u w a b hb ha => ?_⟩
  · obtain ⟨v, hv, rfl⟩ := Option.map_eq_some_iff.1 hb
    exact ⟨fun m hm => (ha.1 m hm).setCursor (ha.2 m hm ▸ hv), ha.2⟩
  · cases hb
    exact ha

/-- One element replaced by one with the same image. -/
theorem map_set_of_eq {α β : Type} {f : α → β} {l : List α} {j : Nat} {d b : α} (h : f b = f (l.getD j d)) :
    (l.set j b).map f = l.map f := by
  by_cases hj : j < l.length
  · rw [List.map_set, h, List.getD_eq_getElem _ _ hj, ← List.getElem_map f (h := by simpa using hj),
      List.set_getElem_self]
  · rw [List.set_eq_of_length_le (Nat.not_lt.1 hj)]

theorem RvsS.combs_caps {s : RvsS} {j : Nat} {k : RvsComb} (h : k.mem = (s.comb j).mem) :
    (s.combs.set j k).map (fun k => k.mem.cap) = s.combs.map (fun k => k.mem.cap) :=
  map_set_of_eq (congrArg Memory.cap h)

theorem RvsS.aps_caps {s : RvsS} {j : Nat} {a : RvsAp} (h : a.mem = (s.ap j).mem) :
    (s.aps.set j a).map (fun a => a.mem.cap) = s.aps.map (fun a => a.mem.cap) :=
  map_set_of_eq (congrArg Memory.cap h)

/-- WR of `CIDX` in a comb. -/
def RvsComb.setIdx (w : Word) (k : RvsComb) : Option RvsComb :=
  (cursorOf k.mem.cap w).map fun v => { k with idx := v }

/-- WR of `AIDX` in an allpass. -/
def RvsAp.setIdx (w : Word) (a : RvsAp) : Option RvsAp := (cursorOf a.mem.cap w).map fun v => { a with idx := v }

theorem RvsComb.setIdx_ringOk {w : Word} {active : Bool} {k k' : RvsComb} (hk : k.setIdx w = some k')
    (h : ringOk active k.mem k.idx) : ringOk active k'.mem k'.idx := by
  obtain ⟨v, hv, rfl⟩ := Option.map_eq_some_iff.1 hk
  exact h.setCursor hv

theorem RvsAp.setIdx_ringOk {w : Word} {active : Bool} {a a' : RvsAp} (ha : a.setIdx w = some a')
    (h : ringOk active a.mem a.idx) : ringOk active a'.mem a'.idx := by
  obtain ⟨v, hv, rfl⟩ := Option.map_eq_some_iff.1 ha
  exact h.setCursor hv

/-- RVS: combs and allpasses keep their memories, and a cursor is put inside its own (rules R49, R71). -/
theorem rvsViews_keepRings : ∀ view ∈ rvsViews, view.Keeps fun u v => u.ringsOk → v.ringsOk := by
  simp only [rvsViews, List.forall_mem_append, List.forall_mem_map, List.forall_mem_cons, View.keeps_raw]
  refine ⟨⟨⟨⟨⟨⟨fun _ _ => id, fun _ _ => id, fun _ _ => id, nofun⟩, fun _ _ => View.keeps_fixed⟩,
    fun _ _ => View.keeps_fixed⟩,
    fun j _ => View.copy_keepsAll (fun _ _ => rfl) (fun _ _ _ => id) fun u w a b hb ⟨hcombs, haps, hclen, halen⟩ => ?_⟩,
    fun j _ => View.copy_keepsAll (fun _ _ => rfl) (fun _ _ _ => id) fun u w a b hb ⟨hcombs, haps, hclen, halen⟩ => ?_⟩,
    fun j _ => View.copy_keepsAll (fun _ _ => rfl) (fun _ _ _ => id) fun u w a b hb ⟨hcombs, haps, hclen, halen⟩ => ?_⟩
  · obtain ⟨v, hv, rfl⟩ := Option.map_eq_some_iff.1 hb
    have hset : (a.comb j).setIdx w = some { a.comb j with idx := v } := by rw [RvsComb.setIdx, hv]; rfl
    exact ⟨forall_mem_set_some hcombs (fun _ _ => RvsComb.setIdx_ringOk) hset, haps,
      fun h => (RvsS.combs_caps (by rfl)).trans (hclen h), halen⟩
  · cases hb
    exact ⟨forall_mem_set (f := fun k : RvsComb => { k with filt := w }) hcombs fun _ h => h, haps,
      fun h => (RvsS.combs_caps (by rfl)).trans (hclen h), halen⟩
  · obtain ⟨v, hv, rfl⟩ := Option.map_eq_some_iff.1 hb
    have hset : (a.ap j).setIdx w = some { a.ap j with idx := v } := by rw [RvsAp.setIdx, hv]; rfl
    exact ⟨hcombs, forall_mem_set_some haps (fun _ _ => RvsAp.setIdx_ringOk) hset, hclen,
      fun h => (RvsS.aps_caps (by rfl)).trans (halen h)⟩

/-! ### The rings of the state -/

/-- The way from `s` to `t` keeps the rings. -/
def State.KeepsRings (s t : State) : Prop := s.ringsOk → t.ringsOk

section
variable {s : State}

theorem State.keepsRings_pitch {v : Pitch} (h : s.pitch.ringsOk → v.ringsOk) : s.KeepsRings { s with pitch := v } :=
  fun ⟨hpitch, hrest⟩ => ⟨h hpitch, hrest⟩

theorem State.keepsRings_dly {v : Dly} (h : s.dly.ringsOk → v.ringsOk) : s.KeepsRings { s with dly := v } :=
  fun ⟨hpitch, hdly, hrest⟩ => ⟨hpitch, h hdly, hrest⟩

theorem State.keepsRings_rvs {v : Rvs} (h : s.rvs.ringsOk → v.ringsOk) : s.KeepsRings { s with rvs := v } :=
  fun ⟨hpitch, hdly, hrvs, hrest⟩ => ⟨hpitch, hdly, h hrvs, hrest⟩

theorem State.keepsRings_fdn {v : Fdn} (h : s.fdn.ringsOk → v.ringsOk) : s.KeepsRings { s with fdn := v } :=
  fun ⟨hpitch, hdly, hrvs, hfdn, hlim⟩ => ⟨hpitch, hdly, hrvs, h hfdn, hlim⟩

theorem State.keepsRings_lim {v : Lim} (h : s.lim.ringsOk → v.ringsOk) : s.KeepsRings { s with lim := v } :=
  fun ⟨hpitch, hdly, hrvs, hfdn, hlim⟩ => ⟨hpitch, hdly, hrvs, hfdn, h hlim⟩

end

/-- An operation of a unit without a ring leaves every ring alone; those with one are the PROC of their unit. -/
theorem State.KeepsRings.respected : Respected State.KeepsRings where
  refl _ := id
  trans h k := k ∘ h
  gateProc _ _ _ := .after fun _ => .ok id
  agcProc _ _ _ := .after fun _ => .ok id
  deessProc _ _ _ := .after fun _ => .ok id
  bqProc _ _ _ _ := .after fun _ => .ok id
  svfProc _ _ _ _ := .after fun _ => .ok id
  compProc _ _ _ := .after fun _ => .ok id
  fetProc _ _ _ := .after fun _ => .ok id
  satProc _ _ _ := .after fun _ => .ok id
  osUp _ _ _ := .after fun _ => .ok id
  osDown _ _ _ _ _ _ := .after fun _ => .ok id
  widProc _ _ _ _ := .after fun _ => .ok id
  xnAcc _ _ _ := .after fun _ => .ok id
  xnAnalyze _ := .after fun _ => .ok id
  agcExt _ _ _ := .after fun _ => .ok id
  fetThoff _ _ := .after fun _ => .ok id
  satDscale _ _ := .after fun _ => .ok id
  bqGoff _ _ _ := .after fun _ => .after fun _ => .ok id
  svfGoff _ _ _ := .after fun _ => .after fun _ => .ok id
  pipe _ _ _ _ := id
  pitchProc s c x := (s.pitch.proc_ringsOk s.ctx c x).bind fun _ h => .ok (State.keepsRings_pitch h)
  dlyProc s c x := (s.dly.proc_ringsOk s.ctx c x).bind fun _ h => .ok (State.keepsRings_dly h)
  rvsProc s c x := (s.rvs.proc_ringsOk s.ctx c x).bind fun _ h => .ok (State.keepsRings_rvs h)
  fdnProc s c x := (s.fdn.proc_ringsOk s.ctx c x).bind fun _ h => .ok (State.keepsRings_fdn h)
  limProc s c x := (s.lim.proc_ringsOk s.ctx c x).bind fun _ h => .ok (State.keepsRings_lim h)

/-- What a write through the register file of a unit leaves: the state with that unit put into it. -/
theorem unitAccess_write_put {U : Type} {life : Life} {snap : Bool} {views : List (View U)} {u : U} {put : U → State}
    {c r : Nat} {w : Word} {t : State} (h : (unitAccess life snap views u put c r).write w = some t) :
    ∃ v, t = put v := by
  obtain ⟨v, -, hv⟩ := unitAccess_write_keeps (P := fun _ _ => True) (fun _ _ _ _ _ _ _ => trivial) h
  exact ⟨v, hv⟩

theorem State.writeReg_keepsRings (s : State) (u : UnitId) (c i r : Nat) (w : Word) :
    Leads State.KeepsRings id s (s.writeReg u c i r w) := by
  intro t ht
  obtain ⟨_, -, -, -, -, hw⟩ := State.writeReg_eq_ok.1 ht
  cases u with
  | pitch => obtain ⟨v, hv, rfl⟩ := unitAccess_write_keeps pitchViews_keepRings hw; exact keepsRings_pitch hv
  | dly => obtain ⟨v, hv, rfl⟩ := unitAccess_write_keeps dlyViews_keepRings hw; exact keepsRings_dly hv
  | rvs => obtain ⟨v, hv, rfl⟩ := unitAccess_write_keeps rvsViews_keepRings hw; exact keepsRings_rvs hv
  | fdn => obtain ⟨v, hv, rfl⟩ := unitAccess_write_keeps fdnViews_keepRings hw; exact keepsRings_fdn hv
  | lim => obtain ⟨v, hv, rfl⟩ := unitAccess_write_keeps limViews_keepRings hw; exact keepsRings_lim hv
  | _ => obtain ⟨v, rfl⟩ := unitAccess_write_put hw; exact id

/-- `PIPE.RST` sizes every ring (rule R386). -/
theorem State.pipeRst_ringsOk (s : State) (os : Bool) (fs : F32) : Gives State.ringsOk (s.pipeRst os fs) :=
  .after fun _ => .after fun _ => .after fun _ => .after fun _ =>
  (s.pitch.rst_ringsOk s.ctx _).bind fun _ hpitch =>
  .after fun _ => .after fun _ => .after fun _ => .after fun _ => .after fun _ =>
  (s.dly.rst_ringsOk s.ctx fs).bind fun _ hdly =>
  (s.rvs.rst_ringsOk s.ctx fs).bind fun _ hrvs =>
  (s.fdn.rst_ringsOk s.ctx fs).bind fun _ hfdn =>
  .after fun _ =>
  (s.lim.rst_ringsOk s.ctx fs).bind fun _ hlim =>
  .after fun _ => .ok ⟨hpitch, hdly, hrvs, hfdn, hlim⟩

/-- `PIPE.DEINIT` leaves the memories and binds no cursor (rule R396). -/
theorem State.deinit_ringsOk {s : State} (h : s.ringsOk) : s.deinit.ringsOk := by
  obtain ⟨hpitch, hdly, hrvs, hfdn, hlim⟩ := h
  refine ⟨fun c hc => (hpitch c hc).inactive, fun c hc => (hdly c hc).inactive, fun c hc => ?_, fun c hc => ?_,
    fun c hc => (hlim c hc).inactive⟩
  · obtain ⟨hcombs, haps, -⟩ := hrvs c hc
    exact ⟨fun k hk => (hcombs k hk).inactive, fun a ha => (haps a ha).inactive, nofun, nofun⟩
  · obtain ⟨hrings, hcap⟩ := hfdn c hc
    exact ⟨fun m hm => (hrings m hm).inactive, hcap⟩

/-- RESTORE runs the CFG of every unit (rule R405). -/
theorem State.restored_ringsOk {s : State} (v : Saved) (h : s.ringsOk) : (s.restored v).ringsOk := by
  obtain ⟨hpitch, hdly, hrvs, hfdn, hlim⟩ := State.ringsOk_iff.1 h
  exact ⟨Pitch.cfg_ringsOk s.ctx _ hpitch, Dly.cfg_ringsOk s.ctx _ hdly, Rvs.cfg_ringsOk _ hrvs,
    Fdn.cfg_ringsOk s.ctx _ hfdn, Lim.cfg_ringsOk s.ctx _ hlim⟩

/-! ### Every command -/

/-- Every command, by the shape of its meaning: RST and CFG of a unit with rings, RST and CFG of one without, a PROC or
AUX that PIPE may perform too, or a command of PIPE. -/
theorem exec_keepsRings (i : Instr) (s : State) : Reaches State.KeepsRings s (exec i s) := by
  have ops := State.KeepsRings.respected
  cases i with
  | pitchRst fs => exact ⟨_, rfl, (s.pitch.rst_ringsOk s.ctx fs).bind fun _ h => .ok (s.keepsRings_pitch fun _ => h)⟩
  | dlyRst fs => exact ⟨_, rfl, (s.dly.rst_ringsOk s.ctx fs).bind fun _ h => .ok (s.keepsRings_dly fun _ => h)⟩
  | rvsRst fs => exact ⟨_, rfl, (s.rvs.rst_ringsOk s.ctx fs).bind fun _ h => .ok (s.keepsRings_rvs fun _ => h)⟩
  | fdnRst fs => exact ⟨_, rfl, (s.fdn.rst_ringsOk s.ctx fs).bind fun _ h => .ok (s.keepsRings_fdn fun _ => h)⟩
  | limRst fs => exact ⟨_, rfl, (s.lim.rst_ringsOk s.ctx fs).bind fun _ h => .ok (s.keepsRings_lim fun _ => h)⟩
  | pitchCfg => exact .next (s.keepsRings_pitch (Pitch.cfg_ringsOk s.ctx _))
  | dlyCfg => exact .next (s.keepsRings_dly (Dly.cfg_ringsOk s.ctx _))
  | rvsCfg => exact .next (s.keepsRings_rvs (Rvs.cfg_ringsOk _))
  | fdnCfg => exact .next (s.keepsRings_fdn (Fdn.cfg_ringsOk s.ctx _))
  | limCfg => exact .next (s.keepsRings_lim (Lim.cfg_ringsOk s.ctx _))
  | envRst | gateRst | agcRst | deessRst | compRst | fetRst | satRst | widRst | xnRst | bqCfg | svfCfg | rd =>
    exact ⟨_, rfl, .after fun _ => .ok id⟩
  | bqRst | svfRst | pipeCfg =>
    exact ⟨_, rfl, Leads.keep (π := id) (.after fun _ => .ok id) fun _ => rfl⟩
  | envCfg | gateCfg | agcCfg | deessCfg | compCfg | fetCfg | satCfg | widCfg | xnCfg | osRst => exact .next id
  | envProc | pipeSave => exact ⟨_, rfl, .after fun _ => .after fun _ => .ok id⟩
  | gateProc ch x => exact ⟨_, rfl, .after fun _ => (ops.gateProc s _ x).bind fun _ h => .ok h⟩
  | agcProc ch x => exact ⟨_, rfl, .after fun _ => (ops.agcProc s _ x).bind fun _ h => .ok h⟩
  | deessProc ch x => exact ⟨_, rfl, .after fun _ => (ops.deessProc s _ x).bind fun _ h => .ok h⟩
  | compProc ch x => exact ⟨_, rfl, .after fun _ => (ops.compProc s _ x).bind fun _ h => .ok h⟩
  | fetProc ch x => exact ⟨_, rfl, .after fun _ => (ops.fetProc s _ x).bind fun _ h => .ok h⟩
  | satProc ch x => exact ⟨_, rfl, .after fun _ => (ops.satProc s _ x).bind fun _ h => .ok h⟩
  | pitchProc ch x => exact ⟨_, rfl, .after fun _ => (ops.pitchProc s _ x).bind fun _ h => .ok h⟩
  | dlyProc ch x => exact ⟨_, rfl, .after fun _ => (ops.dlyProc s _ x).bind fun _ h => .ok h⟩
  | rvsProc ch x => exact ⟨_, rfl, .after fun _ => (ops.rvsProc s _ x).bind fun _ h => .ok h⟩
  | fdnProc ch x => exact ⟨_, rfl, .after fun _ => (ops.fdnProc s _ x).bind fun _ h => .ok h⟩
  | limProc ch x => exact ⟨_, rfl, .after fun _ => (ops.limProc s _ x).bind fun _ h => .ok h⟩
  | bqProc ch b x => exact ⟨_, rfl, .after fun _ => (ops.bqProc s _ _ x).bind fun _ h => .ok h⟩
  | svfProc ch b x => exact ⟨_, rfl, .after fun _ => (ops.svfProc s _ _ x).bind fun _ h => .ok h⟩
  | widProc ch l r => exact ⟨_, rfl, .after fun _ => (ops.widProc s _ l r).bind fun _ h => .ok h⟩
  | osUp ch x => exact ⟨_, rfl, .after fun _ => (ops.osUp s _ x).bind fun _ h => .ok h⟩
  | osDown ch u0 u1 u2 u3 => exact ⟨_, rfl, .after fun _ => (ops.osDown s _ u0 u1 u2 u3).bind fun _ h => .ok h⟩
  | xnAcc ch x => exact ⟨_, rfl, .after fun _ => (ops.xnAcc s _ x).bind fun _ h => .ok h⟩
  | xnAnalyze => exact ⟨_, rfl, (ops.xnAnalyze s).bind fun _ h => .ok h⟩
  | agcExt m v => exact ⟨_, rfl, (ops.agcExt s m v).bind fun _ h => .ok h⟩
  | fetThoff v => exact ⟨_, rfl, (ops.fetThoff s v).bind fun _ h => .ok h⟩
  | satDscale v => exact ⟨_, rfl, (ops.satDscale s v).bind fun _ h => .ok h⟩
  | bqGoff b v => exact ⟨_, rfl, (ops.bqGoff s _ v).bind fun _ h => .ok h⟩
  | svfGoff b v => exact ⟨_, rfl, (ops.svfGoff s _ v).bind fun _ h => .ok h⟩
  | pipeRst os fs => exact ⟨_, rfl, (s.pipeRst_ringsOk os fs).bind fun _ h => .ok fun _ => h⟩
  | pipeDeinit => exact ⟨_, rfl, .after fun _ => .ok State.deinit_ringsOk⟩
  | pipeRestore => exact ⟨_, rfl, .after fun _ => .after fun v => .ok (State.restored_ringsOk v)⟩
  | pipeFrame xs => exact ⟨_, rfl, .after fun _ => ops.pipeFrame s xs⟩
  | pipeBegin => exact ⟨_, rfl, (ops.pipeBegin s).bind fun _ h => .ok h⟩
  | pipeEnd => exact ⟨_, rfl, (ops.pipeEnd s).bind fun _ h => .ok h⟩
  | wr u ch idx reg v => exact ⟨_, rfl, (s.writeReg_keepsRings u _ _ _ v).bind fun _ h => .ok h⟩

/-- Settles O10: a step waits, drops an illegal command word, or runs a command. -/
theorem stepKeepsRings : Obligations.StepKeepsRings := by
  intro s t hs h
  rcases step_eq_next h with rfl | ⟨_, n, -, rfl⟩ | ⟨i, rest, -, hi⟩
  · exact hs
  · exact hs
  · exact (exec_keepsRings i (s.withRx rest)).ends (S := State.KeepsRings) hi (fun _ _ hu => hu) (fun _ => id) hs

end Sys2Proof.Machine
end

section
/-! What WR stores (rules R31 to R54, R66, R86, R88, R401): the registers of a unit as one list of words per copy, the
write of a register as one word of that list, unit by unit. -/

namespace Sys2Proof.Machine

/-! ### How a unit holds its registers -/

/-- How the record `U` of a unit holds its registers, the per-channel ones in a list of copies `S`. -/
structure Layout (U S : Type) where
  unit : UnitId
  views : List (View U)
  life : U → Life
  snap : U → Bool := fun _ => false
  copies : U → List S
  put : U → List S → U
  fresh : S
  /-- the ring memories of a copy -/
  rings : S → List Memory := fun _ => []

/-- The place of the copy that CH selects: WID addresses a pair by its even channel (rule R118). -/
def slot : UnitId → Nat → Nat
  | .wid, c => c / 2
  | _, c => c

/-- Two addresses that exist select the same copy only if they are the same. -/
theorem slot_inj {p : Params} {unit : UnitId} {c d : Nat} (hc : copyExists p unit .s c = true)
    (hd : copyExists p unit .s d = true) (h : slot unit c = slot unit d) : c = d := by
  cases unit with
  | wid =>
    simp only [copyExists_iff, if_true] at hc hd
    simp only [slot] at h
    omega
  | _ => exact h

/-- The per-channel copies of a unit other than WID are as many as there are channels (rule R32). -/
theorem slot_lt {p : Params} {unit : UnitId} {c : Nat} (hunit : unit ≠ .wid) (hc : copyExists p unit .s c = true) :
    slot unit c < p.nch := by
  cases unit with
  | wid => exact absurd rfl hunit
  | _ => simpa [copyExists_iff, slot] using hc

namespace Layout
variable {U S : Type} (L : Layout U S)

/-- The words of copy `c` of a unit's registers, in register order. -/
def file (u : U) (c : Nat) : List Word := L.views.map (·.get u c)

/-- `v` is `u` with the word `a` in copy `c` of register `r`, and nothing else changed (rules R86, R401). -/
structure Stores (u : U) (c r : Nat) (a : Word) (v : U) : Prop where
  life : L.life v = L.life u
  snap : L.snap v = L.snap u
  rings : (L.copies v).map L.rings = (L.copies u).map L.rings
  file : ∀ d, L.file v d =
    if regClass L.unit r = some .s ∧ slot L.unit d ≠ slot L.unit c then L.file u d else (L.file u d).set r a

/-- WR of register `r` through `view`, in a copy that exists, stores one word: the one written, `PIPE.STATUS` aside. -/
def Lawful (p : Params) (fits : U → Prop) (r : Nat) (view : View U) : Prop :=
  ∀ u c w v, fits u → (regClass L.unit r = some .s → copyExists p L.unit .s c = true) → view.set u c w = some v →
    ∃ a, (regClass L.unit r ≠ some .status → a = w) ∧ L.Stores u c r a v

/-- The registers from `k` on are lawful. -/
def LawfulFrom (p : Params) (fits : U → Prop) (k : Nat) (views : List (View U)) : Prop :=
  ∀ r view, views[r]? = some view → L.Lawful p fits (k + r) view

variable {L} {p : Params} {fits : U → Prop} {k : Nat} {views : List (View U)}

theorem LawfulFrom.nil : L.LawfulFrom p fits k [] := nofun

theorem LawfulFrom.cons {view : View U} (h : L.Lawful p fits k view) (hs : L.LawfulFrom p fits (k + 1) views) :
    L.LawfulFrom p fits k (view :: views) := by
  intro r v hv
  cases r with
  | zero => cases hv; exact h
  | succ r => simpa [Nat.add_assoc, Nat.add_comm 1] using hs r v hv

theorem LawfulFrom.append {more : List (View U)} (h : L.LawfulFrom p fits k views)
    (hs : L.LawfulFrom p fits (k + views.length) more) : L.LawfulFrom p fits k (views ++ more) := by
  intro r v hv
  by_cases hr : r < views.length
  · exact h r v (by rwa [List.getElem?_append_left hr] at hv)
  · have hge := Nat.not_lt.1 hr
    have hlaw := hs (r - views.length) v (by rwa [List.getElem?_append_right hge] at hv)
    rwa [show k + views.length + (r - views.length) = k + r by omega] at hlaw

theorem LawfulFrom.range {n : Nat} {f : Nat → View U} (h : ∀ j < n, L.Lawful p fits (k + j) (f j)) :
    L.LawfulFrom p fits k ((List.range n).map f) := by
  intro r v hv
  rw [List.getElem?_map] at hv
  obtain ⟨j, hj, rfl⟩ := Option.map_eq_some_iff.1 hv
  obtain ⟨hlt, rfl⟩ := List.getElem?_eq_some_iff.1 hj
  rw [List.getElem_range]
  exact h r (by simpa using hlt)

/-- A register that WR may not write. -/
theorem Lawful.fixed {get : U → Word} {r : Nat} : L.Lawful p fits r (.fixed get) := nofun

/-- A register of one copy that holds a listed value. -/
theorem Lawful.coded {α : Type} {get : U → Word} {of : Word → Option α} {set : U → α → U} {r : Nat} (word : α → Word)
    (hof : ∀ w a, of w = some a → word a = w) (hr : regClass L.unit r ≠ some .s := by nofun)
    (hset : ∀ u a, L.Stores u 0 r (word a) (set u a) := by intros; exact ⟨rfl, rfl, rfl, fun _ => rfl⟩) :
    L.Lawful p fits r (.coded get of set) := by
  intro u c w v _ _ hv
  obtain ⟨a, ha, rfl⟩ := Option.map_eq_some_iff.1 hv
  obtain ⟨hlife, hsnap, hrings, hfile⟩ := hset u a
  exact ⟨w, fun _ => rfl, hlife, hsnap, hrings, fun d => by rw [hfile, hof w a ha]; simp [hr]⟩

/-- A register of one copy that accepts every word. -/
theorem Lawful.raw {get : U → Word} {set : U → Word → U} {r : Nat} (hr : regClass L.unit r ≠ some .s := by nofun)
    (hset : ∀ u w, L.Stores u 0 r w (set u w) := by intros; exact ⟨rfl, rfl, rfl, fun _ => rfl⟩) :
    L.Lawful p fits r (.raw get set) :=
  .coded (of := some) id (fun _ _ h => (Option.some.inj h).symm) hr hset

/-- The per-channel registers stand in the list of copies and nowhere else, and a unit with its copies has every one
that CH can select. -/
structure Copied (L : Layout U S) (p : Params) (fits : U → Prop) : Prop where
  copies_put : ∀ u l, L.copies (L.put u l) = l
  put_put : ∀ u l m, L.put (L.put u l) m = L.put u m
  life_put : ∀ u l, L.life (L.put u l) = L.life u
  snap_put : ∀ u l, L.snap (L.put u l) = L.snap u
  file_eq : ∀ u c, L.file u c = L.file (L.put u [(L.copies u).getD (slot L.unit c) L.fresh]) 0
  reaches : ∀ u c, fits u → copyExists p L.unit .s c = true → slot L.unit c < (L.copies u).length

/-- A unit other than WID with as many copies as channels (rule R32): the rest of `Copied` holds by computation. -/
theorem Copied.of_length (hunit : L.unit ≠ .wid) (hfits : ∀ u, fits u → (L.copies u).length = p.nch)
    (hcopies : ∀ u l, L.copies (L.put u l) = l := by intros; rfl)
    (hput : ∀ u l m, L.put (L.put u l) m = L.put u m := by intros; rfl)
    (hlife : ∀ u l, L.life (L.put u l) = L.life u := by intros; rfl)
    (hsnap : ∀ u l, L.snap (L.put u l) = L.snap u := by intros; rfl)
    (hfile : ∀ u c, L.file u c = L.file (L.put u [(L.copies u).getD (slot L.unit c) L.fresh]) 0 := by intros; rfl) :
    L.Copied p fits :=
  ⟨hcopies, hput, hlife, hsnap, hfile, fun u _ hu hc => (hfits u hu).symm ▸ slot_lt hunit hc⟩

/-- A per-channel register, where its write in one copy stores one word of the copy. -/
theorem Lawful.of_copy (hL : L.Copied p fits) {view : View U} {set : S → Word → Option S} {r : Nat}
    (hr : regClass L.unit r = some .s)
    (hview : ∀ u c w, view.set u c w = (set ((L.copies u).getD (slot L.unit c) L.fresh) w).map fun t =>
      L.put u ((L.copies u).set (slot L.unit c) t))
    (hset : ∀ u t w t', fits u → t ∈ L.copies u → set t w = some t' →
      L.rings t' = L.rings t ∧ L.file (L.put u [t']) 0 = (L.file (L.put u [t]) 0).set r w) :
    L.Lawful p fits r view := by
  intro u c w v hu hc hv
  rw [hview] at hv
  obtain ⟨t', ht', rfl⟩ := Option.map_eq_some_iff.1 hv
  have hlt := hL.reaches u c hu (hc hr)
  have hat : (L.copies u).getD (slot L.unit c) L.fresh = (L.copies u)[slot L.unit c] := List.getD_eq_getElem _ _ hlt
  obtain ⟨hrings, hfile⟩ := hset u _ w t' hu (hat ▸ List.getElem_mem hlt) ht'
  refine ⟨w, fun _ => rfl, hL.life_put .., hL.snap_put .., ?_, fun d => ?_⟩
  · rw [hL.copies_put]
    exact map_set_of_eq hrings
  · rw [hL.file_eq, hL.copies_put, hL.put_put, hL.file_eq u d]
    by_cases hd : slot L.unit d = slot L.unit c
    · rw [if_neg (by simp [hd]), hd, ← hfile, List.getD_eq_getElem _ _ (by rwa [List.length_set]),
        List.getElem_set_self]
    · rw [if_pos ⟨hr, hd⟩, List.getD_eq_getElem?_getD, List.getElem?_set_ne (Ne.symm hd), ← List.getD_eq_getElem?_getD]

/-- A per-channel register that holds what `of` makes of a word. -/
theorem Lawful.codedCopy {α : Type} (hL : L.Copied p fits) {get : S → Word} {of : S → Word → Option α}
    {move : S → α → S} {r : Nat} (word : α → Word) (hof : ∀ t w a, of t w = some a → word a = w)
    (hr : regClass L.unit r = some .s := by rfl) (hslot : ∀ c, slot L.unit c = c := by intro; rfl)
    (hset : ∀ u t a, fits u → t ∈ L.copies u →
      L.rings (move t a) = L.rings t ∧ L.file (L.put u [move t a]) 0 = (L.file (L.put u [t]) 0).set r (word a) := by
        intros; exact ⟨rfl, rfl⟩) :
    L.Lawful p fits r (.copy L.copies L.put L.fresh get fun t w => (of t w).map (move t)) := by
  refine .of_copy hL (set := fun t w => (of t w).map (move t)) hr (fun u c w => by rw [hslot]; rfl)
    fun u t w t' hu ht h => ?_
  obtain ⟨a, ha, rfl⟩ := Option.map_eq_some_iff.1 h
  exact hof t w a ha ▸ hset u t a hu ht

/-- A cursor holds the word that it accepts (rule R71). -/
theorem Lawful.cursor (hL : L.Copied p fits) {get : S → Word} {cap : S → Nat} {move : S → Word → S} {r : Nat}
    (hr : regClass L.unit r = some .s := by rfl) (hslot : ∀ c, slot L.unit c = c := by intro; rfl)
    (hset : ∀ u t a, fits u → t ∈ L.copies u →
      L.rings (move t a) = L.rings t ∧ L.file (L.put u [move t a]) 0 = (L.file (L.put u [t]) 0).set r a := by
        intros; exact ⟨rfl, rfl⟩) :
    L.Lawful p fits r (.copy L.copies L.put L.fresh get fun t w => (cursorOf (cap t) w).map (move t)) :=
  .codedCopy hL id (fun _ _ _ h => (cursorOf_eq_some.1 h).2) hr hslot hset

/-- A per-channel register that accepts every word. -/
theorem Lawful.rawCopy (hL : L.Copied p fits) {get : S → Word} {set : S → Word → S} {r : Nat}
    (hr : regClass L.unit r = some .s := by rfl) (hslot : ∀ c, slot L.unit c = c := by intro; rfl)
    (hset : ∀ u t w, fits u → t ∈ L.copies u →
      L.rings (set t w) = L.rings t ∧ L.file (L.put u [set t w]) 0 = (L.file (L.put u [t]) 0).set r w := by
        intros; exact ⟨rfl, rfl⟩) :
    L.Lawful p fits r (.copy L.copies L.put L.fresh get fun t w => some (set t w)) :=
  .codedCopy hL (of := fun _ w => some w) id (fun _ _ _ h => (Option.some.inj h).symm) hr hslot hset

end Layout

/-! ### Words of listed values (rule R71) -/

theorem flagWord_of {w : Word} {b : Bool} (h : flagOf w = some b) : flagWord b = w := (flagOf_eq_some.1 h).symm

theorem bqTypeWord_of {w : Word} {t : BqType} (h : bqTypeOf w = some t) : bqTypeWord t = w := by
  unfold bqTypeOf at h
  split_ifs at h <;> cases h <;> exact Eq.symm ‹_›

theorem svfTypeWord_of {w : Word} {t : SvfType} (h : svfTypeOf w = some t) : svfTypeWord t = w := by
  unfold svfTypeOf at h
  split_ifs at h <;> cases h <;> exact Eq.symm ‹_›

theorem satTypeWord_of {w : Word} {t : SatType} (h : satTypeOf w = some t) : satTypeWord t = w := by
  unfold satTypeOf at h
  split_ifs at h <;> cases h <;> exact Eq.symm ‹_›

theorem gateStateWord_of {w : Word} {t : GateState} (h : gateStateOf w = some t) : gateStateWord t = w := by
  unfold gateStateOf at h
  split_ifs at h <;> cases h <;> exact Eq.symm ‹_›

/-! ### The units -/

def envLayout : Layout Env F32 where
  unit := .env
  views := envViews
  life := Env.life
  copies := Env.envelope
  put u l := { u with envelope := l }
  fresh := 0

def bqLayout : Layout Bq BqTaps where
  unit := .bq
  views := bqViews
  life := Bq.life
  copies := Bq.taps
  put u l := { u with taps := l }
  fresh := BqTaps.zero

def svfLayout : Layout Svf SvfS where
  unit := .svf
  views := svfViews
  life := Svf.life
  copies := Svf.ch
  put u l := { u with ch := l }
  fresh := SvfS.zero

def gateLayout : Layout Gate GateS where
  unit := .gate
  views := gateViews
  life := Gate.life
  copies := Gate.ch
  put u l := { u with ch := l }
  fresh := GateS.fresh

def agcLayout : Layout Agc AgcS where
  unit := .agc
  views := agcViews
  life := Agc.life
  copies := Agc.ch
  put u l := { u with ch := l }
  fresh := AgcS.fresh

def deessLayout : Layout Deess DeessS where
  unit := .deess
  views := deessViews
  life := Deess.life
  copies := Deess.ch
  put u l := { u with ch := l }
  fresh := DeessS.fresh

def compLayout : Layout Comp F32 where
  unit := .comp
  views := compViews
  life := Comp.life
  copies := Comp.gain
  put u l := { u with gain := l }
  fresh := F32.one

def fetLayout : Layout Fet F32 where
  unit := .fet
  views := fetViews
  life := Fet.life
  copies := Fet.envelope
  put u l := { u with envelope := l }
  fresh := F32.zero

def satLayout : Layout Sat SatS where
  unit := .sat
  views := satViews
  life := Sat.life
  copies := Sat.ch
  put u l := { u with ch := l }
  fresh := SatS.fresh

def pitchLayout : Layout Pitch PitchS where
  unit := .pitch
  views := pitchViews
  life := Pitch.life
  copies := Pitch.ch
  put u l := { u with ch := l }
  fresh := ⟨0, 0, .unsized⟩
  rings c := [c.mem]

def dlyLayout : Layout Dly DlyS where
  unit := .dly
  views := dlyViews
  life := Dly.life
  snap := Dly.snap
  copies := Dly.ch
  put u l := { u with ch := l }
  fresh := ⟨0, 0, .unsized⟩
  rings c := [c.mem]

def rvsLayout : Layout Rvs RvsS where
  unit := .rvs
  views := rvsViews
  life := Rvs.life
  copies := Rvs.ch
  put u l := { u with ch := l }
  fresh := ⟨[], []⟩
  rings c := c.combs.map (fun k => k.mem) ++ c.aps.map (fun a => a.mem)

def fdnLayout : Layout Fdn FdnS where
  unit := .fdn
  views := fdnViews
  life := Fdn.life
  copies := Fdn.ch
  put u l := { u with ch := l }
  fresh := ⟨0, [], []⟩
  rings c := c.lb

def widLayout : Layout Wid WidS where
  unit := .wid
  views := widViews
  life := Wid.life
  copies := Wid.pairs
  put u l := { u with pairs := l }
  fresh := WidS.fresh

def osLayout : Layout Os OsS where
  unit := .os
  views := osViews
  life := Os.life
  copies := Os.ch
  put u l := { u with ch := l }
  fresh := OsS.fresh

def limLayout : Layout Lim LimS where
  unit := .lim
  views := limViews
  life := Lim.life
  copies := Lim.ch
  put u l := { u with ch := l }
  fresh := ⟨0, 0, .unsized⟩
  rings c := [c.lb]

def xnLayout : Layout Xn Six where
  unit := .xn
  views := xnViews
  life := Xn.life
  copies := Xn.lps
  put u l := { u with lps := l }
  fresh := Six.zero

/-- PIPE has no per-channel register (rule R66). -/
def pipeLayout (p : Params) : Layout Pipe Unit where
  unit := .pipe
  views := pipeViews p
  life := Pipe.life
  copies _ := []
  put u _ := u
  fresh := ()

section
set_option Elab.async false
variable (p : Params)

theorem envLayout_lawful : envLayout.LawfulFrom p (Env.fits p) 0 envViews := by
  have copied : envLayout.Copied p (Env.fits p) := .of_length nofun fun _ => id
  iterate 4 refine .cons .raw ?_
  exact .cons (.rawCopy copied) .nil

theorem bqLayout_lawful : bqLayout.LawfulFrom p (Bq.fits p) 0 bqViews := by
  have copied : bqLayout.Copied p (Bq.fits p) := .of_length nofun fun _ => id
  refine .cons (.coded bqTypeWord (fun _ _ => bqTypeWord_of)) ?_
  iterate 8 refine .cons .raw ?_
  iterate 4 refine .cons (.rawCopy copied) ?_
  exact .cons .raw .nil

theorem svfLayout_lawful : svfLayout.LawfulFrom p (Svf.fits p) 0 svfViews := by
  have copied : svfLayout.Copied p (Svf.fits p) := .of_length nofun fun _ => id
  refine .cons (.coded svfTypeWord (fun _ _ => svfTypeWord_of)) ?_
  iterate 7 refine .cons .raw ?_
  iterate 2 refine .cons (.rawCopy copied) ?_
  exact .cons .raw .nil

theorem gateLayout_lawful : gateLayout.LawfulFrom p (Gate.fits p) 0 gateViews := by
  have copied : gateLayout.Copied p (Gate.fits p) := .of_length nofun fun _ => id
  iterate 12 refine .cons .raw ?_
  refine .cons (.rawCopy copied) ?_
  refine .cons (.codedCopy copied gateStateWord (fun _ _ _ => gateStateWord_of)) ?_
  iterate 2 refine .cons (.rawCopy copied) ?_
  exact .nil

theorem agcLayout_lawful : agcLayout.LawfulFrom p (Agc.fits p) 0 agcViews := by
  have copied : agcLayout.Copied p (Agc.fits p) := .of_length nofun fun _ => id
  iterate 4 refine .cons .raw ?_
  refine .cons (.coded flagWord (fun _ _ => flagWord_of)) ?_
  iterate 4 refine .cons .raw ?_
  iterate 2 refine .cons (.rawCopy copied) ?_
  exact .nil

theorem deessLayout_lawful : deessLayout.LawfulFrom p (Deess.fits p) 0 deessViews := by
  have copied : deessLayout.Copied p (Deess.fits p) := .of_length nofun fun _ => id
  iterate 14 refine .cons .raw ?_
  iterate 3 refine .cons (.rawCopy copied) ?_
  exact .nil

theorem compLayout_lawful : compLayout.LawfulFrom p (Comp.fits p) 0 compViews := by
  have copied : compLayout.Copied p (Comp.fits p) := .of_length nofun fun _ => id
  iterate 10 refine .cons .raw ?_
  exact .cons (.rawCopy copied) .nil

theorem fetLayout_lawful : fetLayout.LawfulFrom p (Fet.fits p) 0 fetViews := by
  have copied : fetLayout.Copied p (Fet.fits p) := .of_length nofun fun _ => id
  iterate 4 refine .cons .raw ?_
  refine .cons (.coded flagWord (fun _ _ => flagWord_of)) ?_
  iterate 7 refine .cons .raw ?_
  exact .cons (.rawCopy copied) .nil

theorem satLayout_lawful : satLayout.LawfulFrom p (Sat.fits p) 0 satViews := by
  have copied : satLayout.Copied p (Sat.fits p) := .of_length nofun fun _ => id
  refine .cons .raw ?_
  refine .cons (.coded satTypeWord (fun _ _ => satTypeWord_of)) ?_
  iterate 11 refine .cons .raw ?_
  iterate 8 refine .cons (.rawCopy copied) ?_
  exact .nil

theorem pitchLayout_lawful : pitchLayout.LawfulFrom p (Pitch.fits p) 0 pitchViews := by
  have copied : pitchLayout.Copied p (Pitch.fits p) := .of_length nofun fun _ => id
  iterate 5 refine .cons .raw ?_
  refine .cons (.cursor copied) ?_
  exact .cons (.rawCopy copied) .nil

theorem dlyLayout_lawful : dlyLayout.LawfulFrom p (Dly.fits p) 0 dlyViews := by
  have copied : dlyLayout.Copied p (Dly.fits p) := .of_length nofun fun _ => id
  iterate 4 refine .cons .raw ?_
  refine .cons (.rawCopy copied) ?_
  exact .cons (.cursor copied) .nil

theorem limLayout_lawful : limLayout.LawfulFrom p (Lim.fits p) 0 limViews := by
  have copied : limLayout.Copied p (Lim.fits p) := .of_length nofun fun _ => id
  iterate 5 refine .cons .raw ?_
  refine .cons .fixed ?_
  refine .cons (.cursor copied) ?_
  exact .cons (.rawCopy copied) .nil

theorem xnLayout_lawful : xnLayout.LawfulFrom p (Xn.fits p) 0 xnViews := by
  have copied : xnLayout.Copied p (Xn.fits p) := .of_length nofun fun _ => id
  iterate 13 refine .cons .raw ?_
  iterate 6 refine .cons (.rawCopy copied) ?_
  iterate 11 refine .cons .raw ?_
  exact .nil

/-- PIPE: `STATUS` is cleared where a bit is written, so it stores another word than the one written (rule R69). -/
theorem pipeLayout_lawful (fits : Pipe → Prop) : (pipeLayout p).LawfulFrom p fits 0 (pipeViews p) := by
  iterate 5 refine .cons (.coded id (fun _ _ h => (accept_eq_some.1 h).2)) ?_
  iterate 5 refine .cons .raw ?_
  iterate 4 refine .cons .fixed ?_
  refine .cons ?_ .nil
  rintro u c w _ _ _ ⟨⟩
  exact ⟨u.status &&& ~~~w, fun h => absurd rfl h, rfl, rfl, rfl, fun _ => rfl⟩

theorem widLayout_lawful : widLayout.LawfulFrom p (Wid.fits p) 0 widViews := by
  have copied : widLayout.Copied p (Wid.fits p) := by
    refine ⟨fun _ _ => rfl, fun _ _ _ => rfl, fun _ _ => rfl, fun _ _ => rfl, fun _ _ => rfl, fun u c hu hc => ?_⟩
    obtain ⟨heven, hlt⟩ : c % 2 = 0 ∧ c + 1 < p.nch := by simpa [widLayout, copyExists_iff] using hc
    show c / 2 < u.pairs.length
    rw [show u.pairs.length = p.nch / 2 from hu]
    omega
  have pair {r : Nat} {get : WidS → Word} {set : WidS → Word → WidS} (hr : regClass .wid r = some .s)
      (hset : ∀ u t w,
        widLayout.file (widLayout.put u [set t w]) 0 = (widLayout.file (widLayout.put u [t]) 0).set r w) :
      widLayout.Lawful p (Wid.fits p) r (widPair get set) := by
    refine .of_copy copied (set := fun t w => some (set t w)) hr (fun _ _ _ => rfl) fun u t w t' _ _ h => ?_
    cases h
    exact ⟨rfl, hset u t w⟩
  iterate 2 refine .cons .raw ?_
  refine .cons (.coded flagWord (fun _ _ => flagWord_of)) ?_
  refine .cons .raw ?_
  iterate 2 refine .cons (pair rfl fun _ _ _ => rfl) ?_
  exact .nil

/-! ### The units with arrays of registers -/

/-- An array of registers after one element is replaced: one word of it is another. -/
theorem map_getD_set {α : Type} {get : α → Word} {l : List α} {n j : Nat} {d b : α} (hj : j < l.length) :
    (List.range n).map (fun i => get ((l.set j b).getD i d)) =
      ((List.range n).map fun i => get (l.getD i d)).set j (get b) := by
  refine List.ext_getElem (by simp) fun i _ _ => ?_
  by_cases hi : j = i
  · subst hi
    simp [List.getD_eq_getElem?_getD, hj]
  · simp [List.getD_eq_getElem?_getD, List.getElem_set_ne hi, List.getElem?_set_ne hi]

/-- An array of registers that the replaced element holds as before. -/
theorem map_getD_set_of_eq {α : Type} {get : α → Word} {l : List α} {n j : Nat} {d b : α}
    (h : get b = get (l.getD j d)) :
    (List.range n).map (fun i => get ((l.set j b).getD i d)) = (List.range n).map fun i => get (l.getD i d) := by
  refine List.map_congr_left fun i _ => ?_
  rw [← List.getD_map (f := get), map_set_of_eq h, List.getD_map]

/-- A word of the second part of a list. -/
theorem set_append_add {A B : List Word} {n j : Nat} {a : Word} (h : A.length = n) :
    (A ++ B).set (n + j) a = A ++ B.set j a := by
  rw [← h, List.set_append_right _ _ (Nat.le_add_right ..), Nat.add_sub_cancel_left]

/-- The registers of RVS that no channel holds, in register order (rule R49). -/
def Rvs.shared (u : Rvs) : List Word :=
  [u.P.room, u.P.damp, u.P.mix] ++ (List.range 8).map (fun i => u.clen.getD i 0) ++
    (List.range 4).map (fun j => u.alen.getD j 0)

theorem Rvs.shared_length (u : Rvs) : u.shared.length = 15 := rfl

/-- Behind them stand `CIDX[0..7]`, `CFILT[0..7]` and `AIDX[0..3]` of a channel. -/
theorem rvsLayout_file (u : Rvs) (t : RvsS) : rvsLayout.file (rvsLayout.put u [t]) 0 =
    u.shared ++ ((List.range 8).map (fun i => (t.comb i).idx) ++ ((List.range 8).map (fun i => (t.comb i).filt) ++
      (List.range 4).map fun j => (t.ap j).idx)) := rfl

theorem rvsLayout_copied : rvsLayout.Copied p (Rvs.fits p) := .of_length nofun fun _ hu => hu.1

theorem rvsLayout_combIdx {j : Nat} (hj : j < 8) : rvsLayout.Lawful p (Rvs.fits p) (15 + j)
    (rvsCopy (fun t => (t.comb j).idx) fun t w => (cursorOf (t.comb j).mem.cap w).map
      fun v => { t with combs := t.combs.set j { t.comb j with idx := v } }) := by
  refine .cursor (rvsLayout_copied p) (by interval_cases j <;> rfl) (fun _ => rfl) fun u t v hu ht => ⟨?_, ?_⟩
  · exact congrArg (· ++ _) (map_set_of_eq (by rfl))
  · obtain ⟨-, -, -, hcopies⟩ := hu
    have hlt : j < t.combs.length := (hcopies t ht).1 ▸ hj
    rw [rvsLayout_file, rvsLayout_file, set_append_add u.shared_length, List.set_append_left _ _ (by simpa using hj)]
    simp only [RvsS.comb, RvsS.ap]
    rw [map_getD_set (get := RvsComb.idx) hlt, map_getD_set_of_eq (get := RvsComb.filt) (by rfl)]

theorem rvsLayout_combFilt {j : Nat} (hj : j < 8) : rvsLayout.Lawful p (Rvs.fits p) (15 + (8 + j))
    (rvsCopy (fun t => (t.comb j).filt)
      fun t w => some { t with combs := t.combs.set j { t.comb j with filt := w } }) := by
  refine .rawCopy (rvsLayout_copied p) (by interval_cases j <;> rfl) (fun _ => rfl) fun u t w hu ht => ⟨?_, ?_⟩
  · exact congrArg (· ++ _) (map_set_of_eq (by rfl))
  · obtain ⟨-, -, -, hcopies⟩ := hu
    have hlt : j < t.combs.length := (hcopies t ht).1 ▸ hj
    rw [rvsLayout_file, rvsLayout_file, set_append_add u.shared_length, set_append_add (by simp),
      List.set_append_left _ _ (by simpa using hj)]
    simp only [RvsS.comb, RvsS.ap]
    rw [map_getD_set (get := RvsComb.filt) hlt, map_getD_set_of_eq (get := RvsComb.idx) (by rfl)]

theorem rvsLayout_apIdx {j : Nat} (hj : j < 4) : rvsLayout.Lawful p (Rvs.fits p) (15 + (8 + (8 + j)))
    (rvsCopy (fun t => (t.ap j).idx) fun t w => (cursorOf (t.ap j).mem.cap w).map
      fun v => { t with aps := t.aps.set j { t.ap j with idx := v } }) := by
  refine .cursor (rvsLayout_copied p) (by interval_cases j <;> rfl) (fun _ => rfl) fun u t v hu ht => ⟨?_, ?_⟩
  · exact congrArg (_ ++ ·) (map_set_of_eq (by rfl))
  · obtain ⟨-, -, -, hcopies⟩ := hu
    have hlt : j < t.aps.length := (hcopies t ht).2 ▸ hj
    rw [rvsLayout_file, rvsLayout_file, set_append_add u.shared_length, set_append_add (by simp),
      set_append_add (by simp)]
    simp only [RvsS.comb, RvsS.ap]
    rw [map_getD_set (get := RvsAp.idx) hlt]

theorem rvsLayout_lawful : rvsLayout.LawfulFrom p (Rvs.fits p) 0 rvsViews := by
  refine .append (.append (.append (.append (.append ?_ (.range fun _ _ => .fixed)) (.range fun _ _ => .fixed))
    (.range fun j hj => ?_)) (.range fun j hj => ?_)) (.range fun j hj => ?_)
  · iterate 3 refine .cons .raw ?_
    exact .nil
  · exact rvsLayout_combIdx p hj
  · have hlaw := rvsLayout_combFilt p hj
    rw [← Nat.add_assoc] at hlaw
    exact hlaw
  · have hlaw := rvsLayout_apIdx p hj
    rw [← Nat.add_assoc, ← Nat.add_assoc] at hlaw
    exact hlaw

/-- The registers of FDN that no channel holds, in register order (rule R50). -/
def Fdn.shared (u : Fdn) : List Word :=
  [u.P.size, u.P.damp, u.P.mix, u.C.fbgain] ++ (List.range 8).map fun i => u.C.len.getD i 0

theorem Fdn.shared_length (u : Fdn) : u.shared.length = 12 := rfl

/-- Behind them stand `WPOS` and `LP[0..7]` of a channel. -/
theorem fdnLayout_file (u : Fdn) (t : FdnS) : fdnLayout.file (fdnLayout.put u [t]) 0 =
    u.shared ++ (t.wpos :: (List.range 8).map fun i => t.lp.getD i 0) := rfl

theorem fdnLayout_copied : fdnLayout.Copied p (Fdn.fits p) := .of_length nofun fun _ hu => hu.1

theorem fdnLayout_lp {j : Nat} (hj : j < 8) : fdnLayout.Lawful p (Fdn.fits p) (12 + (j + 1))
    (fdnCopy (fun t => t.lp.getD j 0) fun t w => some { t with lp := t.lp.set j w }) := by
  refine .rawCopy (fdnLayout_copied p) (by interval_cases j <;> rfl) (fun _ => rfl) fun u t w hu ht => ⟨rfl, ?_⟩
  obtain ⟨-, -, hcopies⟩ := hu
  have hlt : j < t.lp.length := (hcopies t ht).1 ▸ hj
  rw [fdnLayout_file, fdnLayout_file, set_append_add u.shared_length, List.set_cons_succ]
  exact congrArg (fun l => _ ++ _ :: l) (map_getD_set (get := id) hlt)

theorem fdnLayout_lawful : fdnLayout.LawfulFrom p (Fdn.fits p) 0 fdnViews := by
  refine .append (.append (.append ?_ (.range fun _ _ => .fixed)) ?_) (.range fun j hj => ?_)
  · iterate 4 refine .cons .raw ?_
    exact .nil
  · exact .cons (.cursor (fdnLayout_copied p)) .nil
  · have hlaw := fdnLayout_lp p hj
    rw [Nat.add_comm j, ← Nat.add_assoc] at hlaw
    exact hlaw

/-- `UPH[0..15]` and `DNH[0..63]` of a channel (rule R52). -/
theorem osLayout_file (u : Os) (t : OsS) : osLayout.file (osLayout.put u [t]) 0 =
    (List.range 16).map (fun k => t.uph.getD k 0) ++ (List.range 64).map fun j => t.dnh.getD j 0 := rfl

theorem osLayout_copied : osLayout.Copied p (Os.fits p) := .of_length nofun fun _ hu => hu.1

theorem regClass_os : ∀ r < 80, regClass .os r = some .s := by decide

theorem osLayout_lawful : osLayout.LawfulFrom p (Os.fits p) 0 osViews := by
  refine .append (.range fun j hj => ?_) (.range fun j hj => ?_)
  · refine .rawCopy (osLayout_copied p) (regClass_os _ (by omega)) (fun _ => rfl) fun u t w hu ht => ⟨rfl, ?_⟩
    have hlt : j < t.uph.length := (hu.2 t ht).1 ▸ hj
    rw [osLayout_file, osLayout_file, Nat.zero_add, List.set_append_left _ _ (by simpa using hj)]
    exact congrArg (· ++ _) (map_getD_set (get := id) hlt)
  · rw [List.length_map, List.length_range, Nat.zero_add]
    refine .rawCopy (osLayout_copied p) (regClass_os _ (by omega)) (fun _ => rfl) fun u t w hu ht => ⟨rfl, ?_⟩
    have hlt : j < t.dnh.length := (hu.2 t ht).2 ▸ hj
    rw [osLayout_file, osLayout_file, set_append_add (by simp)]
    exact congrArg (_ ++ ·) (map_getD_set (get := id) hlt)

end

end Sys2Proof.Machine
end

section
/-! RD after WR (rules R33, R86, R93, R400, R401): the register written reads as the word written, and every other
register and every ring memory is as before. -/

namespace Sys2Proof.Machine

/-! ### One unit -/

namespace Layout
variable {U S : Type} (L : Layout U S)

/-- What RD returns of register `r` in copy `c`: `UFLAGS`, `FS_EFF` (rule R33) or a word of the file. -/
def word (u : U) (c r : Nat) : Word :=
  if r = 0xF0 then uflagsWord (L.life u) (L.snap u)
  else if r = 0xF1 then (L.life u).fsEff
  else (L.file u c)[r]?.getD 0

theorem unitAccess_value (u : U) (put : U → State) (c r : Nat) :
    (unitAccess (L.life u) (L.snap u) L.views u put c r).value = L.word u c r := by
  simp only [unitAccess, word, file, List.getElem?_map]
  cases L.views[r]? <;> rfl

variable {L} {p : Params} {u v : U} {c d i j r q : Nat} {a w : Word}

/-- The register written holds the word stored. -/
theorem Stores.word_eq (h : L.Stores u c r a v) (hr : r < L.views.length) (hro : readOnlyReg L.unit r = false) :
    L.word v c r = a := by
  have hflags : r ≠ 0xF0 := by rintro rfl; simp [readOnlyReg] at hro
  have hrate : r ≠ 0xF1 := by rintro rfl; simp [readOnlyReg] at hro
  have hlen : r < (L.file u c).length := by simpa [Layout.file] using hr
  rw [word, if_neg hflags, if_neg hrate, h.file, if_neg (by simp), List.getElem?_set_self hlen]
  rfl

/-- Two addresses of one register that exist differ in the copy, and only per-channel registers have several copies. -/
theorem slot_ne_of_ne (hc : addressOk p L.unit c i r = true) (hd : addressOk p L.unit d j r = true) (hne : d ≠ c) :
    regClass L.unit r = some .s ∧ slot L.unit d ≠ slot L.unit c := by
  obtain ⟨cls, hcls, -, hcopy⟩ := addressOk_iff.1 hc
  obtain ⟨cls', hcls', -, hcopy'⟩ := addressOk_iff.1 hd
  obtain rfl : cls = cls' := Option.some.inj (hcls.symm.trans hcls')
  by_cases hs : cls = .s
  · subst hs
    exact ⟨hcls, fun h => hne (slot_inj hcopy' hcopy h)⟩
  · rw [copyExists_iff, if_neg hs] at hcopy hcopy'
    exact absurd (hcopy'.trans hcopy.symm) hne

/-- Every other register holds what it held. -/
theorem Stores.word_other (h : L.Stores u c r a v) (hc : addressOk p L.unit c i r = true)
    (hd : addressOk p L.unit d j q = true) (hne : (d, q) ≠ (c, r)) : L.word v d q = L.word u d q := by
  have hfile : (L.file v d)[q]? = (L.file u d)[q]? := by
    rw [h.file]
    split
    · rfl
    · rename_i hsame
      refine List.getElem?_set_ne fun hrq => ?_
      subst hrq
      exact hsame (slot_ne_of_ne hc hd fun hdc => hne (by rw [hdc]))
  rw [word, word, h.life, h.snap, hfile]

/-- WR through the register file of a unit stores one word. -/
theorem LawfulFrom.write {fits : U → Prop} (hL : L.LawfulFrom p fits 0 L.views) (hu : fits u)
    (hok : addressOk p L.unit c i r = true) {life : Life} {snap : Bool} {put : U → State} {t : State}
    (h : (unitAccess life snap L.views u put c r).write w = some t) :
    ∃ v a, t = put v ∧ r < L.views.length ∧ (regClass L.unit r ≠ some .status → a = w) ∧ L.Stores u c r a v := by
  simp only [unitAccess] at h
  split at h
  · rename_i view hview
    obtain ⟨v, hv, rfl⟩ := Option.map_eq_some_iff.1 h
    obtain ⟨cls, hcls, -, hcopy⟩ := addressOk_iff.1 hok
    have hlaw := hL r view hview
    rw [Nat.zero_add] at hlaw
    obtain ⟨a, ha, hstores⟩ := hlaw u c w v hu (fun hs => Option.some.inj (hcls.symm.trans hs) ▸ hcopy) hv
    exact ⟨v, a, rfl, (List.getElem?_eq_some_iff.1 hview).1, ha, hstores⟩
  · cases h

end Layout

/-! ### The state -/

/-- `t` is `s` with the word `w` in one register, as far as RD can tell (rules R86, R401). -/
structure State.Writes (s t : State) (u : UnitId) (c i r : Nat) (w : Word) : Prop where
  params : t.params = s.params
  port : t.port = s.port
  rings : t.rings = s.rings
  life : ∀ u' c' i' r', addressOk s.params u' c' i' r' = true →
    (t.access u' c' i' r').life = (s.access u' c' i' r').life
  word : regClass u r ≠ some .status → (t.access u c i r).value = w
  others : ∀ u' c' i' r', addressOk s.params u' c' i' r' = true → (u', c', i', r') ≠ (u, c, i, r) →
    (t.access u' c' i' r').value = (s.access u' c' i' r').value

/-- WR reaches the record of one unit: the build, the port and every other unit are as before. -/
theorem State.access_write_frame {s t : State} {u : UnitId} {c i r : Nat} {w : Word}
    (h : (s.access u c i r).write w = some t) : t.params = s.params ∧ t.port = s.port ∧
      ∀ u', u' ≠ u → ∀ c' i' r', (t.access u' c' i' r').life = (s.access u' c' i' r').life ∧
        (t.access u' c' i' r').value = (s.access u' c' i' r').value := by
  cases u
  all_goals
    obtain ⟨v, rfl⟩ := unitAccess_write_put h
    refine ⟨rfl, rfl, fun u' hu' => ?_⟩
    cases u' <;> first | exact absurd rfl hu' | exact fun _ _ _ => ⟨rfl, rfl⟩

theorem State.rings_congr {s t : State} (hpitch : t.pitch.ch.map pitchLayout.rings = s.pitch.ch.map pitchLayout.rings)
    (hdly : t.dly.ch.map dlyLayout.rings = s.dly.ch.map dlyLayout.rings)
    (hrvs : t.rvs.ch.map rvsLayout.rings = s.rvs.ch.map rvsLayout.rings)
    (hfdn : t.fdn.ch.map fdnLayout.rings = s.fdn.ch.map fdnLayout.rings)
    (hlim : t.lim.ch.map limLayout.rings = s.lim.ch.map limLayout.rings) : t.rings = s.rings := by
  have rings_eq (s : State) : s.rings = s.pitch.ch.flatMap pitchLayout.rings ++ s.dly.ch.flatMap dlyLayout.rings ++
      s.rvs.ch.flatMap rvsLayout.rings ++ s.fdn.ch.flatMap fdnLayout.rings ++ s.lim.ch.flatMap limLayout.rings := by
    rw [State.rings, List.map_eq_flatMap, List.map_eq_flatMap, List.map_eq_flatMap (l := s.lim.ch)]
    rfl
  simp only [rings_eq, List.flatMap_def, hpitch, hdly, hrvs, hfdn, hlim]

/-- WR of a register of one unit, whose record the state holds at IDX `i`. -/
theorem State.Writes.of_instance {U S : Type} {L : Layout U S} {s t : State} {fits : U → Prop} {c i r : Nat} {w : Word}
    {x : U} {put : U → State} (hL : L.LawfulFrom s.params fits 0 L.views) (hx : fits x)
    (hok : addressOk s.params L.unit c i r = true) (hro : readOnlyReg L.unit r = false)
    (hw : (s.access L.unit c i r).write w = some t)
    (hs : ∀ d q, s.access L.unit d i q = unitAccess (L.life x) (L.snap x) L.views x put d q)
    (ht : ∀ v, ∃ put', ∀ d q, (put v).access L.unit d i q = unitAccess (L.life v) (L.snap v) L.views v put' d q)
    (hinstance : ∀ v j, j ≠ i → j < instances s.params L.unit → ∀ d q,
      ((put v).access L.unit d j q).life = (s.access L.unit d j q).life ∧
      ((put v).access L.unit d j q).value = (s.access L.unit d j q).value)
    (hrings : ∀ v, (L.copies v).map L.rings = (L.copies x).map L.rings → (put v).rings = s.rings) :
    s.Writes t L.unit c i r w := by
  obtain ⟨hparams, hport, hframe⟩ := State.access_write_frame hw
  rw [hs] at hw
  obtain ⟨v, a, rfl, hr, ha, hstores⟩ := hL.write hx hok hw
  obtain ⟨put', hv⟩ := ht v
  refine ⟨hparams, hport, hrings v hstores.rings, fun u' c' j q hok' => ?_, fun hstatus => ?_,
    fun u' c' j q hok' hne => ?_⟩
  · by_cases hu : u' = L.unit
    · subst hu
      by_cases hj : j = i
      · subst hj
        rw [hv, hs]
        exact hstores.life
      · obtain ⟨_, -, hlt, -⟩ := addressOk_iff.1 hok'
        exact (hinstance v j hj hlt c' q).1
    · exact (hframe u' hu c' j q).1
  · rw [hv, Layout.unitAccess_value, hstores.word_eq hr hro, ha hstatus]
  · by_cases hu : u' = L.unit
    · subst hu
      by_cases hj : j = i
      · subst hj
        rw [hv, hs, Layout.unitAccess_value, Layout.unitAccess_value]
        exact hstores.word_other hok hok' fun h => hne (by cases h; rfl)
      · obtain ⟨_, -, hlt, -⟩ := addressOk_iff.1 hok'
        exact (hinstance v j hj hlt c' q).2
    · exact (hframe u' hu c' j q).2

/-- WR of a register of a unit of which there is one, with the record `x`, for which `put` puts another. -/
theorem State.Writes.of_unit {U S : Type} {L : Layout U S} {s t : State} {fits : U → Prop} {c i r : Nat}
    {w : Word} {x : U} (put : U → State) (hL : L.LawfulFrom s.params fits 0 L.views) (hx : fits x)
    (hok : addressOk s.params L.unit c i r = true) (hro : readOnlyReg L.unit r = false)
    (hw : (s.access L.unit c i r).write w = some t)
    (hrings : ∀ v, (L.copies v).map L.rings = (L.copies x).map L.rings → (put v).rings = s.rings)
    (hone : instances s.params L.unit = 1 := by rfl)
    (hs : ∀ d q, s.access L.unit d i q = unitAccess (L.life x) (L.snap x) L.views x put d q := by intros; rfl)
    (ht : ∀ v, ∃ put', ∀ d q, (put v).access L.unit d i q = unitAccess (L.life v) (L.snap v) L.views v put' d q := by
      intro; exact ⟨_, fun _ _ => rfl⟩) :
    s.Writes t L.unit c i r w := by
  obtain ⟨_, -, hi, -⟩ := addressOk_iff.1 hok
  refine .of_instance hL hx hok hro hw hs ht (fun _ j hj hlt => absurd ?_ hj) hrings
  rw [hone, Nat.lt_one_iff] at hi hlt
  rw [hlt, hi]

theorem State.bqAt_setBq_self {s : State} {i : Nat} (v : Bq) (h : i < s.bq.length) : (s.setBq i v).bqAt i = v := by
  simp [State.bqAt, List.getD_eq_getElem?_getD, h]

theorem State.bqAt_setBq_ne {s : State} {i j : Nat} (v : Bq) (h : j ≠ i) : (s.setBq i v).bqAt j = s.bqAt j := by
  simp [State.bqAt, List.getD_eq_getElem?_getD, List.getElem?_set_ne (Ne.symm h)]

theorem State.svfAt_setSvf_self {s : State} {i : Nat} (v : Svf) (h : i < s.svf.length) :
    (s.setSvf i v).svfAt i = v := by
  simp [State.svfAt, List.getD_eq_getElem?_getD, h]

theorem State.svfAt_setSvf_ne {s : State} {i j : Nat} (v : Svf) (h : j ≠ i) : (s.setSvf i v).svfAt j = s.svfAt j := by
  simp [State.svfAt, List.getD_eq_getElem?_getD, List.getElem?_set_ne (Ne.symm h)]

/-- WR of a register, of whichever unit, on a block with its instances and copies. -/
theorem State.writeReg_writes {s t : State} {u : UnitId} {c i r : Nat} {w : Word} (hs : s.copiesOk)
    (h : s.writeReg u c i r w = .ok t) : s.Writes t u c i r w := by
  obtain ⟨_, -, hok, hro, -, hw⟩ := State.writeReg_eq_ok.1 h
  obtain ⟨henv, ⟨hbq, hbqs⟩, ⟨hsvf, hsvfs⟩, hgate, hagc, hdeess, hcomp, hfet, hsat, hpitch, hdly, hrvs, hfdn, hwid, hos,
    hlim, hxn⟩ := State.copiesOk_iff.1 hs
  cases u with
  | env => exact .of_unit ({ s with env := · }) (envLayout_lawful s.params) henv hok hro hw fun _ _ => rfl
  | bq =>
    obtain ⟨_, -, hi, -⟩ := addressOk_iff.1 hok
    have hlt : i < s.bq.length := hbq.symm ▸ hi
    refine .of_instance (bqLayout_lawful s.params) (x := s.bqAt i) (put := s.setBq i) ?_ hok hro hw
      (fun _ _ => rfl) (fun v => ⟨(s.setBq i v).setBq i, fun _ _ => ?_⟩) (fun v j hj _ _ _ => ?_) fun _ _ => rfl
    · rw [State.bqAt_of_lt hlt]
      exact hbqs _ (List.getElem_mem hlt)
    · simp only [bqLayout, State.access, State.bqAt_setBq_self v hlt]
    · simp only [bqLayout, State.access, State.bqAt_setBq_ne v hj]
      exact ⟨rfl, rfl⟩
  | svf =>
    obtain ⟨_, -, hi, -⟩ := addressOk_iff.1 hok
    have hlt : i < s.svf.length := hsvf.symm ▸ hi
    refine .of_instance (svfLayout_lawful s.params) (x := s.svfAt i) (put := s.setSvf i) ?_ hok hro hw
      (fun _ _ => rfl) (fun v => ⟨(s.setSvf i v).setSvf i, fun _ _ => ?_⟩) (fun v j hj _ _ _ => ?_) fun _ _ => rfl
    · rw [State.svfAt_of_lt hlt]
      exact hsvfs _ (List.getElem_mem hlt)
    · simp only [svfLayout, State.access, State.svfAt_setSvf_self v hlt]
    · simp only [svfLayout, State.access, State.svfAt_setSvf_ne v hj]
      exact ⟨rfl, rfl⟩
  | gate => exact .of_unit ({ s with gate := · }) (gateLayout_lawful s.params) hgate hok hro hw fun _ _ => rfl
  | agc => exact .of_unit ({ s with agc := · }) (agcLayout_lawful s.params) hagc hok hro hw fun _ _ => rfl
  | deess => exact .of_unit ({ s with deess := · }) (deessLayout_lawful s.params) hdeess hok hro hw fun _ _ => rfl
  | comp => exact .of_unit ({ s with comp := · }) (compLayout_lawful s.params) hcomp hok hro hw fun _ _ => rfl
  | fet => exact .of_unit ({ s with fet := · }) (fetLayout_lawful s.params) hfet hok hro hw fun _ _ => rfl
  | sat => exact .of_unit ({ s with sat := · }) (satLayout_lawful s.params) hsat hok hro hw fun _ _ => rfl
  | pitch =>
    exact .of_unit ({ s with pitch := · }) (pitchLayout_lawful s.params) hpitch hok hro hw
      fun _ h => State.rings_congr h rfl rfl rfl rfl
  | dly =>
    exact .of_unit ({ s with dly := · }) (dlyLayout_lawful s.params) hdly hok hro hw
      fun _ h => State.rings_congr rfl h rfl rfl rfl
  | rvs =>
    exact .of_unit ({ s with rvs := · }) (rvsLayout_lawful s.params) hrvs hok hro hw
      fun _ h => State.rings_congr rfl rfl h rfl rfl
  | fdn =>
    exact .of_unit ({ s with fdn := · }) (fdnLayout_lawful s.params) hfdn hok hro hw
      fun _ h => State.rings_congr rfl rfl rfl h rfl
  | wid => exact .of_unit ({ s with wid := · }) (widLayout_lawful s.params) hwid hok hro hw fun _ _ => rfl
  | os => exact .of_unit ({ s with os := · }) (osLayout_lawful s.params) hos hok hro hw fun _ _ => rfl
  | lim =>
    exact .of_unit ({ s with lim := · }) (limLayout_lawful s.params) hlim hok hro hw
      fun _ h => State.rings_congr rfl rfl rfl rfl h
  | xn => exact .of_unit ({ s with xn := · }) (xnLayout_lawful s.params) hxn hok hro hw fun _ _ => rfl
  | pipe =>
    exact .of_unit (x := s.pipe) ({ s with pipe := · }) (pipeLayout_lawful s.params fun _ => True) trivial hok hro
      hw fun _ _ => rfl

/-- Settles O17, from what WR stores. -/
theorem writtenRegisterReadsBack : Obligations.WrittenRegisterReadsBack := by
  intro s t u c i r v hs hstatus h
  have hwrites := State.writeReg_writes hs h
  obtain ⟨cls, hcls, hok, -, hcheck, -⟩ := State.writeReg_eq_ok.1 h
  refine State.readReg_eq_ok.2 ⟨cls, hcls, by rwa [hwrites.params], ?_, hwrites.word fun hst => ?_⟩
  · rwa [hwrites.life u c i r hok]
  · exact hstatus (regClass_eq_status hst)

/-- Settles O18, from what WR stores. -/
theorem wrChangesNoOtherRegister : Obligations.WrChangesNoOtherRegister := by
  intro s t u u' c c' i i' r r' v hs h
  have hwrites := State.writeReg_writes hs h
  refine ⟨hwrites.rings, hwrites.params, hwrites.port, fun hok hne => ?_⟩
  obtain ⟨cls, hcls, -⟩ := addressOk_iff.1 hok
  have hok' : addressOk t.params u' c' i' r' = true := by rwa [hwrites.params]
  rw [State.readReg_of_class hok' hcls, State.readReg_of_class hok hcls, hwrites.life u' c' i' r' hok,
    hwrites.others u' c' i' r' hok hne]

end Sys2Proof.Machine
end

section
/-! Encoding from the side of the words: what the decoder accepts is what the encoder writes (rules R110, R111, R117),
what it refuses is dropped (rule R118), and a command that breaks a field rule of the build is `Illegal` before anything
else is looked at (rule R423). -/

namespace Sys2Proof.Machine

/-! ### The codes of a table entry -/

/-- In a table whose entries stand in the order of their codes, the entry at the number `b` has the code `b`. -/
theorem code_of_getElem? {α : Type} {w : Nat} {table : List α} {code : α → BitVec w}
    (hcodes : table.map code = (List.range table.length).map (BitVec.ofNat w)) {b : BitVec w} {a : α}
    (h : table[b.toNat]? = some a) : code a = b := by
  have hlt : b.toNat < table.length := (List.getElem?_eq_some_iff.1 h).1
  have hat := congrArg (fun codes => codes[b.toNat]?) hcodes
  simp only [List.getElem?_map, h, Option.map_some, List.getElem?_range hlt, Option.some.injEq] at hat
  rw [hat, BitVec.ofNat_toNat, BitVec.setWidth_eq]

/-- UNIT and OP are the upper twelve bits (rule R111). -/
theorem unitField_append_opField (w : Word) : unitField w ++ opField w = w.extractLsb' 20 12 :=
  BitVec.extractLsb'_append_extractLsb'_eq_extractLsb' rfl

/-- The five fields of rule R111 make up the command word: no bit of it is outside them. -/
theorem fields_append (w : Word) :
    (unitField w ++ opField w ++ chField w ++ idxField w ++ modeField w : BitVec 32) = w := by
  have hch : w.extractLsb' 20 12 ++ chField w = w.extractLsb' 16 16 :=
    BitVec.extractLsb'_append_extractLsb'_eq_extractLsb' rfl
  have hidx : w.extractLsb' 16 16 ++ idxField w = w.extractLsb' 8 24 :=
    BitVec.extractLsb'_append_extractLsb'_eq_extractLsb' rfl
  have hmode : w.extractLsb' 8 24 ++ modeField w = w.extractLsb' 0 32 :=
    BitVec.extractLsb'_append_extractLsb'_eq_extractLsb' rfl
  rw [unitField_append_opField, hch, hidx, hmode, BitVec.extractLsb'_eq_self]

/-- A command word is the one that its unit, its operation and its three small fields make (rule R111). -/
theorem commandWord_fields {w : Word} {u : UnitId} {o : Op} (hu : unitTable[(unitField w).toNat]? = some u)
    (ho : opTable[(opField w).toNat]? = some o) :
    commandWord u o (chField w) (idxField w) (modeField w) = w := by
  have hunit : u.code = unitField w := code_of_getElem? (by decide) hu
  have hop : o.code = opField w := code_of_getElem? (by decide) ho
  rw [commandWord, hunit, hop, fields_append]

/-! ### Encoding a decoded command -/

/-- Where the outcome `r` of a row's form is a command, the encoder writes for it the command word of the row with the
given fields, and the operand words `ops`. -/
def WritesBack (u : UnitId) (o : Op) (ch : BitVec 4) (idx mode : BitVec 8) (ops : List Word)
    (r : Except IllegalWord Instr) : Prop :=
  ∀ i, r = .ok i → encode i = commandWord u o ch idx mode :: ops

namespace WritesBack

variable {u : UnitId} {o : Op} {ch : BitVec 4} {idx mode : BitVec 8} {ops : List Word} {i : Instr}

theorem error {e : IllegalWord} : WritesBack u o ch idx mode ops (.error e) := nofun

theorem ok (h : encode i = commandWord u o ch idx mode :: ops) : WritesBack u o ch idx mode ops (.ok i) := by
  rintro _ ⟨⟩
  exact h

/-- A row that allows only fields with `P` writes them back if it does so for those fields. -/
theorem guarded {P : Prop} [Decidable P] {r : Except IllegalWord Instr} {e : IllegalWord}
    (h : P → WritesBack u o ch idx mode ops r) : WritesBack u o ch idx mode ops (if P then r else .error e) := by
  split
  · exact h ‹P›
  · exact .error

theorem noField (h : encode i = commandWord u o 0 0 0 :: ops) :
    WritesBack u o ch idx mode ops (noField ch idx mode i) :=
  .guarded fun ⟨hch, hidx, hmode⟩ => .ok (by rw [h, hch, hidx, hmode])

theorem chOnly (h : encode i = commandWord u o ch 0 0 :: ops) :
    WritesBack u o ch idx mode ops (chOnly idx mode i) :=
  .guarded fun ⟨hidx, hmode⟩ => .ok (by rw [h, hidx, hmode])

theorem idxOnly (h : encode i = commandWord u o 0 idx 0 :: ops) :
    WritesBack u o ch idx mode ops (idxOnly ch mode i) :=
  .guarded fun ⟨hch, hmode⟩ => .ok (by rw [h, hch, hmode])

theorem chIdx (h : encode i = commandWord u o ch idx 0 :: ops) :
    WritesBack u o ch idx mode ops (chIdx mode i) :=
  .guarded fun hmode => .ok (by rw [h, hmode])

section Codes
variable {α : Type} {codes : List α} {code : α → BitVec 8} {f : α → Instr}
  (hcodes : codes.map code = (List.range codes.length).map (BitVec.ofNat 8))
include hcodes

/-- The MODE code is the one of the value that the table has at it. -/
theorem coded (h : ∀ a, encode (f a) = commandWord u o ch idx (code a) :: ops) :
    WritesBack u o ch idx mode ops
      (match codes[mode.toNat]? with
       | some a => .ok (f a)
       | none => .error .reservedMode) := by
  split
  case h_1 a ha => exact .ok (by rw [h, code_of_getElem? hcodes ha])
  case h_2 => exact .error

theorem modeCode (h : ∀ a, encode (f a) = commandWord u o 0 0 (code a) :: ops) :
    WritesBack u o ch idx mode ops (modeCode codes ch idx mode f) := by
  refine .guarded fun ⟨hch, hidx⟩ => ?_
  subst hch hidx
  exact .coded hcodes h

theorem idxModeCode (h : ∀ a, encode (f a) = commandWord u o 0 idx (code a) :: ops) :
    WritesBack u o ch idx mode ops (idxModeCode codes ch mode f) := by
  refine .guarded fun hch => ?_
  subst hch
  exact .coded hcodes h

end Codes
end WritesBack

section Rows
variable (u : UnitId) (ch : BitVec 4) (idx mode : BitVec 8) (ops : List Word)

theorem buildRst_writesBack : WritesBack u .rst ch idx mode ops (buildRst u ch idx mode ops) := by
  cases u with
  | os =>
    match ops with
    | [] => exact .noField rfl
    | _ :: _ => exact .error
  | pipe =>
    match ops with
    | [fs] => exact .modeCode (code := flagCode) (by decide) fun _ => rfl
    | [] | _ :: _ :: _ => exact .error
  | _ =>
    match ops with
    | [fs] => exact .noField rfl
    | [] | _ :: _ :: _ => exact .error

theorem buildCfg_writesBack : WritesBack u .cfg ch idx mode ops (buildCfg u ch idx mode ops) := by
  cases u with
  | os => exact .error
  | bq =>
    simp only [buildCfg]
    split
    exacts [.idxModeCode (code := BqType.code) (by decide) fun _ => rfl, .error]
  | svf =>
    simp only [buildCfg]
    split
    exacts [.idxModeCode (code := SvfType.code) (by decide) fun _ => rfl, .error]
  | sat =>
    simp only [buildCfg]
    split
    exacts [.modeCode (code := SatType.code) (by decide) fun _ => rfl, .error]
  | fet | wid =>
    simp only [buildCfg]
    split
    exacts [.modeCode (code := flagCode) (by decide) fun _ => rfl, .error]
  | _ =>
    simp only [buildCfg]
    split
    exacts [.noField rfl, .error]

theorem buildProc_writesBack : WritesBack u .proc ch idx mode ops (buildProc u ch idx mode ops) := by
  cases u with
  | pipe => exact .noField rfl
  | wid =>
    match ops with
    | [l, r] => exact .chOnly rfl
    | [] | [_] | _ :: _ :: _ :: _ => exact .error
  | bq | svf =>
    match ops with
    | [x] => exact .chIdx rfl
    | [] | _ :: _ :: _ => exact .error
  | _ =>
    match ops with
    | [x] => exact .chOnly rfl
    | [] | _ :: _ :: _ => exact .error

/-- The AUX rows of PIPE but RESTORE read no operand word, so they write back only where there is none. -/
theorem buildAux_writesBack (hops : u = .pipe → pipeAuxTable[idx.toNat]? ≠ some .restore → ops = []) :
    WritesBack u .aux ch idx mode ops (buildAux u ch idx mode ops) := by
  cases u with
  | bq | svf =>
    simp only [buildAux]
    split
    exacts [.idxOnly rfl, .error]
  | agc =>
    simp only [buildAux]
    split
    exacts [.modeCode (code := flagCode) (by decide) fun _ => rfl, .error]
  | fet | sat | xn =>
    simp only [buildAux]
    split
    exacts [.noField rfl, .error]
  | os =>
    simp only [buildAux]
    split
    exacts [.chOnly rfl, .error]
  | pipe =>
    cases ha : pipeAuxTable[idx.toNat]? with
    | none =>
      simp only [buildAux, ha]
      exact .error
    | some a =>
      obtain rfl : a.code = idx := code_of_getElem? (by decide) ha
      cases a with
      | restore =>
        match ops with
        | n :: ws => exact .idxOnly rfl
        | [] => exact .error
      | begin | finish | deinit | save =>
        obtain rfl := hops rfl (by decide)
        exact .idxOnly rfl
  | _ => exact .error

/-- What a row makes of the fields and the operand words, the encoder writes with the same fields and words, if there is
no operand word where the row reads none: RD, and the AUX rows of PIPE but RESTORE. -/
theorem build_writesBack {o : Op} (hrd : o = .rd → ops = [])
    (haux : u = .pipe → o = .aux → pipeAuxTable[idx.toNat]? ≠ some .restore → ops = []) :
    WritesBack u o ch idx mode ops (build u o ch idx mode ops) := by
  cases o with
  | rst => exact buildRst_writesBack u ch idx mode ops
  | cfg => exact buildCfg_writesBack u ch idx mode ops
  | proc => exact buildProc_writesBack u ch idx mode ops
  | aux => exact buildAux_writesBack u ch idx mode ops fun hu => haux hu rfl
  | rd =>
    obtain rfl := hrd rfl
    exact .ok rfl
  | wr =>
    match ops with
    | [v] => exact .ok rfl
    | [] | _ :: _ :: _ => exact .error

end Rows

/-- A PIPE AUX word that is not RESTORE has no operand word, whatever its other fields (rules R115, R118). -/
theorem operandCount_pipeAux_zero (nch : Nat) (ch : BitVec 4) {idx : BitVec 8} (mode : BitVec 8) (rest : List Word)
    (h : pipeAuxTable[idx.toNat]? ≠ some .restore) :
    operandCount nch (commandWord .pipe .aux ch idx mode) rest = some 0 := by
  unfold operandCount
  rw [unitField_commandWord, opField_commandWord, unitTable_code, opTable_code, idxField_commandWord]
  cases ha : pipeAuxTable[idx.toNat]? with
  | none => rfl
  | some a =>
    cases a with
    | restore => exact absurd ha h
    | begin | finish | deinit | save => rfl

/-- A command word that makes a command is the word of a row, and the row makes the command (rules R116, R117). -/
theorem decodeWord_eq_ok {w : Word} {ops : List Word} {i : Instr} (h : decodeWord w ops = .ok i) :
    ∃ u o ch idx mode, commandWord u o ch idx mode = w ∧ build u o ch idx mode ops = .ok i := by
  cases hu : unitTable[(unitField w).toNat]? with
  | none => simp [decodeWord, hu] at h
  | some u =>
    cases ho : opTable[(opField w).toNat]? with
    | none => simp [decodeWord, hu, ho] at h
    | some o => exact ⟨u, o, _, _, _, commandWord_fields hu ho, by simpa only [decodeWord, hu, ho] using h⟩

/-- A command word with the operand words that the decoder counts is what the encoder writes for the command. -/
theorem encode_of_decodeWord {nch : Nat} {w : Word} {ops rest : List Word} {i : Instr}
    (hcount : operandCount nch w (ops ++ rest) = some ops.length) (h : decodeWord w ops = .ok i) :
    encode i = w :: ops := by
  obtain ⟨u, o, ch, idx, mode, rfl, hbuild⟩ := decodeWord_eq_ok h
  refine build_writesBack u ch idx mode ops (fun hrd => ?_) (fun hu ho ha => ?_) i hbuild
  · subst hrd
    rw [operandCount_row _ _ _ _ _ _ _ (by simp)] at hcount
    exact List.eq_nil_of_length_eq_zero (Option.some.inj hcount).symm
  · subst hu ho
    rw [operandCount_pipeAux_zero nch ch mode _ ha] at hcount
    exact List.eq_nil_of_length_eq_zero (Option.some.inj hcount).symm

/-- What the decoder answers to a word on the port: the transaction is not whole, or the word and the operand words
counted for it make a command or an illegal one (rules R110, R118). -/
theorem decode_cons (p : Params) (w : Word) (tail : List Word) :
    decode p (w :: tail) = .error .incomplete ∨
    ∃ n, operandCount p.nch w tail = some n ∧ n ≤ tail.length ∧
      ((∃ i, decodeWord w (tail.take n) = .ok i ∧ decode p (w :: tail) = .ok (i, tail.drop n)) ∨
        ∃ e, decodeWord w (tail.take n) = .error e ∧ decode p (w :: tail) = .error (.illegal e n)) := by
  cases hcount : operandCount p.nch w tail with
  | none => exact .inl (decode_incomplete (by simp [hcount]))
  | some n =>
    by_cases hlt : tail.length < n
    · exact .inl (decode_incomplete (by simpa [hcount] using hlt))
    · refine .inr ⟨n, rfl, by omega, ?_⟩
      cases hword : decodeWord w (tail.take n) with
      | ok i => exact .inl ⟨i, rfl, by simp only [decode, hcount, hlt, if_false, hword]⟩
      | error e => exact .inr ⟨e, rfl, by simp only [decode, hcount, hlt, if_false, hword]⟩

/-- A command that the decoder reads: its command word makes it with the operand words counted for it. -/
theorem decode_eq_ok {p : Params} {ws rest : List Word} {i : Instr} (h : decode p ws = .ok (i, rest)) :
    ∃ w ops, ws = w :: ops ++ rest ∧ operandCount p.nch w (ops ++ rest) = some ops.length ∧
      decodeWord w ops = .ok i := by
  cases ws with
  | nil => cases h
  | cons w tail =>
    obtain hwait | ⟨n, hcount, hle, ⟨j, hword, hj⟩ | ⟨e, -, he⟩⟩ := decode_cons p w tail
    · rw [h] at hwait
      cases hwait
    · obtain ⟨rfl, rfl⟩ : i = j ∧ rest = tail.drop n := by simpa [h] using hj
      exact ⟨w, tail.take n, by simp, by simpa [hle] using hcount, hword⟩
    · rw [h] at he
      cases he

/-- Settles O1: the decoder counts the operand words that the encoder writes, and each row reads its fields back. -/
theorem decodeOfEncodeIsTheCommand : Obligations.DecodeOfEncodeIsTheCommand := fun _ _ rest hwf =>
  decode_encode hwf rest

/-- Settles O2: the fields make up the word, and each row writes back the fields and the operand words it accepts. -/
theorem encodeOfDecodedIsTheWords : Obligations.EncodeOfDecodedIsTheWords := by
  intro p ws rest i h
  obtain ⟨w, ops, rfl, hcount, hword⟩ := decode_eq_ok h
  rw [encode_of_decodeWord hcount hword]

/-! ### Illegal command words -/

/-- A word whose UNIT is reserved has no operand words (rule R118, log entry 16). -/
theorem decode_reservedUnit (p : Params) {w : Word} (rest : List Word) (h : unitTable[(unitField w).toNat]? = none) :
    decode p (w :: rest) = .error (.illegal .reservedUnit 0) := by
  simp [decode, operandCount, decodeWord, h]

/-- A word whose OP is reserved has no operand words, whatever its UNIT (rule R118). -/
theorem decode_reservedOp (p : Params) {w : Word} (rest : List Word) (h : opTable[(opField w).toNat]? = none) :
    ∃ e, decode p (w :: rest) = .error (.illegal e 0) := by
  cases hu : unitTable[(unitField w).toNat]? with
  | none => exact ⟨_, decode_reservedUnit p rest hu⟩
  | some u => exact ⟨.reservedOp, by simp [decode, operandCount, decodeWord, hu, h]⟩

/-- A PIPE AUX word whose IDX is reserved has no operand words (rules R115, R118). -/
theorem decode_reservedPipeAux (p : Params) (ch : BitVec 4) {idx : BitVec 8} (mode : BitVec 8) (rest : List Word)
    (h : pipeAuxTable[idx.toNat]? = none) :
    decode p (commandWord .pipe .aux ch idx mode :: rest) = .error (.illegal .reservedPipeAux 0) := by
  have hcount := operandCount_pipeAux_zero p.nch ch mode rest (by simp [h] : pipeAuxTable[idx.toNat]? ≠ some .restore)
  have hword : decodeWord (commandWord .pipe .aux ch idx mode) [] = .error .reservedPipeAux := by
    simp only [decodeWord_commandWord, build, buildAux, h]
  simp [decode, hcount, hword]

/-- The twelve bits of UNIT and OP tell the row of PIPE AUX (rules R111, R115). -/
theorem commandWord_pipeAux {w : Word} (h : w.extractLsb' 20 12 = 0x113) :
    commandWord .pipe .aux (chField w) (idxField w) (modeField w) = w := by
  have hrow : unitField w ++ opField w = UnitId.code .pipe ++ Op.code .aux := (unitField_append_opField w).trans h
  have hunit : unitField w = UnitId.code .pipe := by
    simpa only [BitVec.extractLsb'_append_eq_left] using congrArg (BitVec.extractLsb' 4 8) hrow
  have hop : opField w = Op.code .aux := by
    simpa only [BitVec.extractLsb'_append_eq_right] using congrArg (BitVec.extractLsb' 0 4) hrow
  exact commandWord_fields (by rw [hunit, unitTable_code]) (by rw [hop, opTable_code])

/-- An illegal word is taken off the port with its operand words, and the step ends with `Illegal` (rules R118, R425).
-/
theorem step_of_illegal {s : State} {w : Word} {rest : List Word} {e : IllegalWord} {n : Nat}
    (hrx : s.port.rx = w :: rest) (h : decode s.params (w :: rest) = .error (.illegal e n)) :
    step s = .next { s with
      port := ⟨rest.drop n, s.port.tx ++ [1]⟩, pipe := { s.pipe with status := s.pipe.status ||| 2 } } := by
  have hfetch : s.fetch = .error (.illegal e n) := by rw [State.fetch, hrx, h]
  simp only [step, hfetch, State.dropIllegal, hrx, List.drop_succ_cons, State.raise, State.respond, List.append_nil]
  rfl

/-- Settles O5: a reserved word is illegal with no operand word, and every illegal word is dropped with those counted.
-/
theorem illegalCommandWordsAreDropped : Obligations.IllegalCommandWordsAreDropped := by
  intro s w rest hrx
  refine ⟨fun hreserved => ?_, fun e n h => ?_⟩
  · obtain ⟨e, he⟩ : ∃ e, decode s.params (w :: rest) = .error (.illegal e 0) := by
      rcases hreserved with hunit | hop | ⟨hrow, hidx⟩
      · exact ⟨_, decode_reservedUnit _ rest (List.getElem?_eq_none hunit)⟩
      · exact decode_reservedOp _ rest (List.getElem?_eq_none hop)
      · rw [← commandWord_pipeAux hrow]
        exact ⟨_, decode_reservedPipeAux _ _ _ rest (List.getElem?_eq_none hidx)⟩
    exact step_of_illegal hrx he
  · obtain hwait | ⟨m, hcount, hle, ⟨i, -, hi⟩ | ⟨e', -, he⟩⟩ := decode_cons s.params w rest
    · rw [h] at hwait
      cases hwait
    · rw [h] at hi
      cases hi
    · obtain ⟨-, rfl⟩ : e = e' ∧ n = m := by simpa [h] using he
      exact ⟨hle, hcount, step_of_illegal hrx h⟩

/-! ### Field rules of the build -/

/-- A command whose first check fails has no other effect (rule R425). -/
theorem conclude_require_false {s : State} {ok : Bool} {r : Raised} {f : Unit → Except Raised (State × List Word)}
    (h : ok = false) : conclude s (require ok r >>= f) = .next (s.raise r) :=
  conclude_bind_error (by rw [h, require_false])

/-- GOFF of a band that does not exist (rules R118, R177, R186). -/
theorem State.bqGoff_illegal {s : State} {i : Nat} (v : F32) (h : decide (i < s.params.neq) = false) :
    s.bqGoff i v = .error .illegal := by
  rw [State.bqGoff, h]; rfl

theorem State.svfGoff_illegal {s : State} {i : Nat} (v : F32) (h : decide (i < s.params.neq) = false) :
    s.svfGoff i v = .error .illegal := by
  rw [State.svfGoff, h]; rfl

/-- Settles O6: a command with a field rule checks it before anything else. -/
theorem fieldRulesComeFirst : Obligations.FieldRulesComeFirst := by
  intro s i h hrestore
  cases i with
  | envProc | gateProc | agcProc | deessProc | compProc | fetProc | satProc | pitchProc | dlyProc | rvsProc | fdnProc
  | limProc | osUp | osDown | xnAcc | bqProc | svfProc | bqCfg | svfCfg | widProc | pipeFrame =>
    exact conclude_require_false h
  | bqGoff idx v => exact conclude_bind_error (State.bqGoff_illegal v h)
  | svfGoff idx v => exact conclude_bind_error (State.svfGoff_illegal v h)
  | rd => exact conclude_bind_error (State.readReg_illegal h)
  | wr u ch idx reg v => exact conclude_bind_error (State.writeReg_illegal v (.inl h))
  | pipeRestore n ws => exact absurd rfl (hrestore n ws)
  | _ => cases h

/-! ### The worked encodings -/

/-- A command is read back from its words wherever the operand words it writes are the ones the decoder counts. -/
theorem decode_encode_of_operandCount {p : Params} {i : Instr} {w : Word} {ops rest : List Word}
    (hencode : encode i = w :: ops) (hcount : operandCount p.nch w (ops ++ rest) = some ops.length) :
    decode p (w :: ops ++ rest) = .ok (i, rest) := by
  obtain ⟨u, o, ch, idx, mode, ops', hencode', hbuild⟩ := readsBack i
  obtain ⟨rfl, rfl⟩ := List.cons.inj (hencode.symm.trans hencode')
  exact decode_of_operandCount hcount ((decodeWord_commandWord ..).trans hbuild)

/-- Settles O3: the words by evaluation of the encoder, the commands from the words. -/
theorem workedEncodingsOfTheSpec : Obligations.WorkedEncodingsOfTheSpec := fun _ =>
  ⟨fun _ => ⟨decode_encode_of_operandCount rfl rfl, decode_encode_of_operandCount rfl rfl,
    decode_encode_of_operandCount rfl rfl, decode_encode_of_operandCount rfl rfl,
    decode_encode_of_operandCount rfl rfl⟩, rfl, rfl, rfl, rfl, rfl⟩

end Sys2Proof.Machine
end

section
/-! The formulas of the coefficients (rules R156 to R353) and ENV.PROC (rules R153, R154, R157). The
lengths of the reverbs are words in lists of the model; the rules give them as numbers, so they have lemmas of their own.
What comes before a PROC, and how its command word is written, is said for a PROC of any unit. -/

namespace Sys2Proof.Machine

/-! ### The lengths of the reverbs (rules R312, R323) -/

/-- The entry at `i` of a list that `f` makes of the first `n` numbers. -/
theorem getD_map_range {α : Type} (f : Nat → α) {n i : Nat} (d : α) (h : i < n) :
    ((List.range n).map f).getD i d = f i := by
  rw [List.getD_eq_getElem?_getD, List.getElem?_map, List.getElem?_range h]
  rfl

/-- The model replaces a length of 0 by 1, which is the maximum that rule R312 takes. -/
theorem rvsLen_toNat (p : Ctx) (ref : Nat) (fs : F32) : (rvsLen p ref fs).toNat = max 1
    (F32.toU32 (F32.floor (p.add (p.div (p.mul (F32.ofNat ref) fs) p.refFs) F32.half))).toNat := by
  rw [rvsLen]
  generalize F32.toU32 _ = n
  by_cases h : n = 0
  · subst h
    rfl
  · have hpos : 1 ≤ n.toNat := Nat.pos_of_ne_zero fun h0 => h (BitVec.eq_of_toNat_eq h0)
    rw [max_eq_right hpos]
    exact congrArg BitVec.toNat (if_neg h)

/-- The length of comb `i` (rule R312). -/
theorem rvsClen_getD (p : Ctx) (fs : F32) {i : Nat} (h : i < 8) :
    (rvsClen p fs).getD i 0 = rvsLen p (p.rvsCombRef.getD i 1) fs := getD_map_range _ 0 h

/-- The length of allpass `j`, which is 1 past the `NAP` that the build has (rule R312). -/
theorem rvsAlen_getD (p : Ctx) (fs : F32) {j : Nat} (h : j < 4) :
    (rvsAlen p fs).getD j 0 = if j < p.nap then rvsLen p (p.rvsApRef.getD j 1) fs else 1 := getD_map_range _ 0 h

/-- The length of a delay line is no larger than the word `raw`, and so is itself a word (rule R323). -/
theorem fdnLen_toNat (p : Ctx) (sz fs : F32) (i : Nat) :
    (fdnLen p sz fs i).toNat = max 1 (min (fdnRaw p sz fs i).toNat (fdnCap p fs - 1)) := by
  have hraw := (fdnRaw p sz fs i).isLt
  rw [fdnLen, BitVec.toNat_ofNat]
  exact Nat.mod_eq_of_lt (by omega)

theorem fdnCoeffs_len_getD (p : Ctx) (fs : F32) (P : FdnP) {i : Nat} (h : i < 8) :
    (fdnCoeffs p fs P).len.getD i 0 = fdnLen p (F32.clamp P.size F32.zero F32.one) fs i := getD_map_range _ 0 h

/-! ### The formulas -/

/-- Settles O20: unit by unit in the order of the statement, each formula as the model writes it (`-2.0` and `-20.0`
given by their bits), and the reverb lengths by the words of their lists. -/
theorem coefficientFormulas : Obligations.CoefficientFormulas := by
  refine ⟨fun _ _ _ _ _ => ⟨rfl, rfl, rfl, rfl, rfl⟩, fun p fs _ _ _ _ _ =>
    ⟨rfl, rfl, rfl, rfl, rfl, rfl,
      fun (_ : GateP) => ⟨rfl, rfl, rfl, rfl, rfl, rfl⟩,
      fun (_ : DeessP) => ⟨rfl, rfl, rfl, rfl, rfl, rfl, rfl, rfl⟩,
      fun (_ : CompP) => ⟨rfl, rfl, rfl, rfl⟩,
      fun (_ : FetP) => ⟨rfl, rfl, rfl, rfl, rfl⟩,
      rfl, rfl, rfl, rfl,
      fun (_ : LimP) => ⟨rfl, rfl, rfl⟩,
      rfl, List.length_map .., List.length_map ..,
      fun i hi => ?combs, fun j hj => ?allpasses, fun (P : FdnP) i hi => ⟨rfl, ?lines⟩⟩⟩
  case combs => rw [rvsClen_getD p fs hi, rvsLen_toNat]
  case allpasses =>
    rw [rvsAlen_getD p fs hj, ← rvsLen_toNat]
    exact apply_ite BitVec.toNat ..
  case lines =>
    rw [fdnCoeffs_len_getD p fs P hi]
    exact fdnLen_toNat ..

/-! ### What comes before a PROC (rules R118, R423, R424) -/

section
variable {s : State} {i : Instr} {legal : Bool} {l : Life} {α : Type} {x : Except Raised α}
  {k : α → Except Raised (State × List Word)}

/-- A command that checks its fields, then runs an operation that begins with the check of the unit's flags. -/
theorem State.turnsAway_of_require (hexec : exec i s = conclude s (require legal .illegal >>= fun _ => x >>= k))
    (hready : ∀ r, l.needReady = .error r → x = .error r) : s.turnsAway i legal l := by
  refine ⟨fun hillegal => ?_, fun hlegal hactive => ?_, fun hlegal hactive hconfigured => ?_⟩
  · rw [hexec, conclude_require_false hillegal]
  · rw [hexec, hlegal, hready _ (Life.needReady_inactive hactive)]
    rfl
  · rw [hexec, hlegal, hready _ (Life.needReady_unconfigured hactive hconfigured)]
    rfl

/-- With legal fields, and an operation that succeeds, a command ends as what follows the operation does. -/
theorem conclude_require_ok {r : Raised} {a : α} (hlegal : legal = true) (hx : x = .ok a) :
    conclude s (require legal r >>= fun _ => x >>= k) = conclude s (k a) := by
  rw [hlegal, hx]; rfl

end

/-- A command word without a MODE is the word of its row, with CH and IDX (rule R111). -/
theorem commandWord_mode_zero {u : UnitId} {o : Op} {base : Word} (ch : BitVec 4) (idx : BitVec 8)
    (hbase : (u.code.setWidth 32 <<< 24) ||| (o.code.setWidth 32 <<< 20) = base) :
    commandWord u o ch idx 0 = rowWord base ch idx := by
  rw [commandWord_eq, hbase]
  exact BitVec.or_zero

/-! ### ENV.PROC (rules R153, R154) -/

/-- Attack and release are the same one-pole, with the coefficient that the comparison selects (rule R153). -/
theorem envStep_eq_onePole (p : Ctx) (a r e v : F32) :
    envStep p a r e v = onePole p (if F32.lt e v then a else r) e v :=
  (apply_ite (onePole p · e v) ..).symm

theorem Env.proc_error {u : Env} {r : Raised} (p : Ctx) (c : Nat) (x : F32) (h : u.life.needReady = .error r) :
    u.proc p c x = .error r := by
  rw [Env.proc, h]; rfl

theorem Env.proc_eq {u : Env} (p : Ctx) (c : Nat) (x : F32) (h : u.life.needReady = .ok ()) :
    u.proc p c x =
      let e := envStep p u.C.a u.C.r (u.envelope.getD c 0) x
      .ok ({ u with envelope := u.envelope.set c e }, e) := by
  rw [Env.proc, h]; rfl

/-- `ENV.PROC` checks its channel, then runs the operation of ENV (rule R154). -/
theorem exec_envProc (s : State) (ch : BitVec 4) (x : Word) : exec (.envProc ch x) s =
    conclude s (require (channelOk s.params ch) .illegal >>= fun _ =>
      s.env.proc s.ctx ch.toNat x >>= fun (u, y) => pure ({ s with env := u }, [y])) := rfl

/-- Settles O26: the checks in order, then one step of the one-pole on the channel's envelope. -/
theorem envelopeFollowsTheInput : Obligations.EnvelopeFollowsTheInput := by
  intro s ch v
  refine ⟨congrArg ([·, v]) (commandWord_mode_zero ch 0 rfl),
    State.turnsAway_of_require (exec_envProc s ch v) fun r => Env.proc_error s.ctx ch.toNat v,
    fun hch hactive hconfigured => ?_⟩
  have hproc := Env.proc_eq s.ctx ch.toNat v (Life.needReady_ok hactive hconfigured)
  rw [envStep_eq_onePole] at hproc
  exact (exec_envProc s ch v).trans (conclude_require_ok (decide_eq_true hch) hproc)

end Sys2Proof.Machine
end

section
/-! PROC of the two filters (rules R175, R176, R184, R185): what the instance's operation does in a state, then the
command, whose fields name a channel and an instance. -/

namespace Sys2Proof.Machine

/-- A channel and an instance that exist are legal fields (rule R118). -/
theorem fieldsOk_of_lt {p : Params} {ch : BitVec 4} {idx : BitVec 8} (hch : ch.toNat < p.nch)
    (hidx : idx.toNat < p.neq) : (channelOk p ch && bandOk p idx) = true := by
  simp [channelOk, bandOk, hch, hidx]

/-! ### BQ.PROC (rules R175, R176) -/

theorem State.bqProc_error {s : State} {i : Nat} {r : Raised} (c : Nat) (x : F32)
    (h : (s.bqAt i).life.needReady = .error r) : s.bqProc c i x = .error r := by
  rw [State.bqProc, Bq.proc, h]; rfl

/-- A ready instance runs its recurrence, which moves its taps on that channel and nothing else. -/
theorem State.bqProc_eq {s : State} {i : Nat} (c : Nat) (x : F32) (h : (s.bqAt i).life.needReady = .ok ()) :
    s.bqProc c i x =
      let u := s.bqAt i
      let (t, y) := bqStep s.ctx u.C (u.taps.getD c BqTaps.zero) x
      .ok (s.setBq i { u with taps := u.taps.set c t }, y) := by
  rw [State.bqProc, Bq.proc, h]; rfl

/-- `BQ.PROC` checks its fields, then runs the operation of the instance (rule R176). -/
theorem exec_bqProc (s : State) (ch : BitVec 4) (idx : BitVec 8) (x : Word) : exec (.bqProc ch idx x) s =
    conclude s (require (channelOk s.params ch && bandOk s.params idx) .illegal >>= fun _ =>
      s.bqProc ch.toNat idx.toNat x >>= fun (t, y) => pure (t, [y])) := rfl

/-- Settles O27: the checks in order, then one step of the recurrence on the instance's channel. -/
theorem biquadRunsItsRecurrence : Obligations.BiquadRunsItsRecurrence := by
  intro s ch idx x
  refine ⟨congrArg ([·, x]) (commandWord_mode_zero ch idx rfl),
    State.turnsAway_of_require (exec_bqProc s ch idx x) fun r => State.bqProc_error ch.toNat x,
    fun hch hidx hactive hconfigured => ?_⟩
  have hproc := State.bqProc_eq ch.toNat x (Life.needReady_ok hactive hconfigured)
  exact (exec_bqProc s ch idx x).trans (conclude_require_ok (fieldsOk_of_lt hch hidx) hproc)

/-! ### SVF.PROC (rules R184, R185) -/

theorem State.svfProc_error {s : State} {i : Nat} {r : Raised} (c : Nat) (x : F32)
    (h : (s.svfAt i).life.needReady = .error r) : s.svfProc c i x = .error r := by
  rw [State.svfProc, Svf.proc, h]; rfl

/-- A ready instance runs its step, which moves its two integrators on that channel and nothing else. -/
theorem State.svfProc_eq {s : State} {i : Nat} (c : Nat) (x : F32) (h : (s.svfAt i).life.needReady = .ok ()) :
    s.svfProc c i x =
      let u := s.svfAt i
      let (t, y) := svfStep s.ctx u.C u.P.type (u.ch.getD c SvfS.zero) x
      .ok (s.setSvf i { u with ch := u.ch.set c t }, y) := by
  rw [State.svfProc, Svf.proc, h]; rfl

/-- `SVF.PROC` checks its fields, then runs the operation of the instance (rule R185). -/
theorem exec_svfProc (s : State) (ch : BitVec 4) (idx : BitVec 8) (x : Word) : exec (.svfProc ch idx x) s =
    conclude s (require (channelOk s.params ch && bandOk s.params idx) .illegal >>= fun _ =>
      s.svfProc ch.toNat idx.toNat x >>= fun (t, y) => pure (t, [y])) := rfl

/-- Settles O28: the checks in order, then one step of the filter on the instance's channel. -/
theorem stateVariableFilterStep : Obligations.StateVariableFilterStep := by
  intro s ch idx x
  refine ⟨congrArg ([·, x]) (commandWord_mode_zero ch idx rfl),
    State.turnsAway_of_require (exec_svfProc s ch idx x) fun r => State.svfProc_error ch.toNat x,
    fun hch hidx hactive hconfigured => ?_⟩
  have hproc := State.svfProc_eq ch.toNat x (Life.needReady_ok hactive hconfigured)
  exact (exec_svfProc s ch idx x).trans (conclude_require_ok (fieldsOk_of_lt hch hidx) hproc)

end Sys2Proof.Machine
end

section
/-! The peaking biquad at zero gain (rules R173, R178): its amplitude is exactly 1.0, multiplying by 1.0 is dividing by
it, and so the coefficients of the numerator are those of the denominator. -/

namespace Sys2Proof.Machine

/-! ### Rounding a quotient -/

theorem roundDiv_mul_left {c : Nat} (hc : 0 < c) (n d : Nat) : roundDiv (c * n) (c * d) = roundDiv n d := by
  have hlt : ∀ a b : Nat, c * a < c * b ↔ a < b := fun a b => Nat.mul_lt_mul_left hc
  simp only [roundDiv, Nat.mul_mod_mul_left, Nat.mul_div_mul_left n d hc, Nat.mul_left_comm 2 c, hlt]

/-- Rounding sees the exact quotient only, not the numerator and the denominator (rule R13). -/
theorem roundMag_mul_left {c : Nat} (hc : 0 < c) (n d : Nat) : roundMag (c * n) (c * d) = roundMag n d := by
  simp only [roundMag, Nat.mul_div_mul_left n d hc, Nat.mul_assoc, roundDiv_mul_left hc]

theorem roundMag_zero (d : Nat) : roundMag 0 d = 0 := by
  simp [roundMag, roundDiv]

/-! ### Operations with 1.0 and with zeros -/

theorem F32.units_one : F32.units F32.one = 2 ^ 149 := rfl

theorem roundMag_one : roundMag (2 ^ 149) 1 = 0x3F800000 :=
  roundMag_magUnits (m := 0x3F800000) (by decide)

/-- A number times 1.0 is the number divided by 1.0: both round the same exact value, flushed or not. -/
theorem mul_one_eq_div_one (p : Ctx) {a : F32} (ha : F32.isNaN a = false) : p.mul a F32.one = p.div a F32.one := by
  have hnan : F32.isNaN F32.one = false := rfl
  have hinf : F32.isInf F32.one = false := rfl
  have hzero : F32.isZero F32.one = false := rfl
  cases hia : F32.isInf a with
  | true => simp [Ctx.mul, Ctx.div, ha, hnan, hinf, hzero, hia, F32.isZero_of_isInf hia]
  | false => simp [Ctx.mul, Ctx.div, ha, hnan, hinf, hzero, hia, F32.units_one]

/-- A finite value that is not zero, divided by itself. -/
theorem div_self_eq_one (p : Ctx) {a : F32} (ha : F32.isFinite a = true) (hz : F32.isZero a = false) :
    p.div a a = F32.one := by
  have hpos : 0 < F32.units a := Nat.pos_of_ne_zero fun h0 => by simp [F32.units_eq_zero_iff.1 h0] at hz
  have hmag : roundMag (F32.units a * 2 ^ 149) (F32.units a) = 0x3F800000 := by
    have := roundMag_mul_left hpos (2 ^ 149) 1
    rwa [Nat.mul_one, roundMag_one] at this
  have hdiv : p.div a a = roundPack p.ftz false (F32.units a * 2 ^ 149) (F32.units a) := by
    simp [Ctx.div, F32.isNaN_of_isFinite, F32.isInf_of_isFinite, ha, hz]
  rw [hdiv, roundPack, hmag]
  exact if_neg (by simp)

/-- A zero divided by a finite value that is not zero is a zero, whatever its sign. -/
theorem isZero_div (p : Ctx) {a b : F32} (ha : F32.isZero a = true) (hb : F32.isFinite b = true)
    (hz : F32.isZero b = false) : F32.isZero (p.div a b) = true := by
  have hfin : F32.isFinite a = true := F32.isFinite_iff.2 (by rw [F32.isZero_iff.1 ha]; decide)
  have hdiv : p.div a b = F32.ofParts (F32.sign a != F32.sign b) 0 := by
    simp [Ctx.div, F32.isNaN_of_isFinite, F32.isInf_of_isFinite, hfin, hb, hz, F32.units_eq_zero_iff.2 ha, roundPack,
      roundMag_zero]
  rw [hdiv, F32.isZero_iff]
  exact F32.mag_ofParts (by decide)

/-! ### The coefficients -/

/-- The amplitude of a biquad at gain `±0.0` is 1.0, since `pow` of a zero exponent is (rules R17, R173). -/
theorem amplitude_of_isZero (p : Ctx) {gain : F32} (h : F32.isZero gain = true) :
    Num.pow F32.ten (p.div gain F32.forty) = F32.one :=
  if_pos (isZero_div p h rfl rfl)

/-- With amplitude 1.0 the unnormalised numerator of the peaking biquad is its denominator. -/
theorem bqRaw_peaking_one (p : Ctx) (cw : F32) {alpha : F32} (h : F32.isNaN alpha = false) :
    let raw := bqRaw p .peaking F32.one cw alpha
    raw.b0 = raw.a0 ∧ raw.b1 = raw.a1 ∧ raw.b2 = raw.a2 := by
  simp only [bqRaw, mul_one_eq_div_one p h, and_self]

/-- Settles O60: each coefficient of the numerator is divided by the same `a0` as its counterpart, and `b0` is `a0`. -/
theorem peakingAtZeroGainIsNeutral : Obligations.PeakingAtZeroGainIsNeutral := by
  intro p freq q gain fs hgain w0 alpha halpha
  obtain ⟨hb0, hb1, hb2⟩ := bqRaw_peaking_one p (Num.cos w0) halpha
  have hcoeffs : bqCoeffs p .peaking freq q gain fs =
      let raw := bqRaw p .peaking F32.one (Num.cos w0) alpha
      ⟨p.div raw.b0 raw.a0, p.div raw.b1 raw.a0, p.div raw.b2 raw.a0, p.div raw.a1 raw.a0, p.div raw.a2 raw.a0⟩ := by
    rw [bqCoeffs, amplitude_of_isZero p hgain]
  rw [hcoeffs]
  refine ⟨congrArg (p.div · _) hb1, congrArg (p.div · _) hb2, fun hfin hzero => ?_⟩
  exact (congrArg (p.div · _) hb0).trans (div_self_eq_one p hfin hzero)

end Sys2Proof.Machine
end

section
/-! `PIPE.BEGIN` and `PIPE.END` (rules R177, R186, R391, R393, R394, R470): the consumers of the supervisor one by one,
as record updates of the state, then the two commands. -/

namespace Sys2Proof.Machine

/-! ### The gain offset of a mud band (rules R177, R186) -/

/-- What `BQ.GOFF` leaves of an active instance. -/
def Bq.withOffset (p : Ctx) (v : F32) (u : Bq) : Bq := { u with
  gainOffDb := v
  C := if u.life.configured then bqCoeffs p u.P.type u.P.freq u.P.q (p.add u.P.gainDb v) u.life.fsEff else u.C }

/-- What `SVF.GOFF` leaves of an active instance. -/
def Svf.withOffset (p : Ctx) (v : F32) (u : Svf) : Svf := { u with
  gainOffDb := v
  C := if u.life.configured then svfCoeffs p u.P.freq u.P.q (p.add u.P.gainDb v) u.life.fsEff else u.C }

/-- The instances of BQ and SVF after both `GOFF`s on the band `b`, where there is one. -/
def offsetBand (p : Ctx) (b : Word) (v : F32) (l : List Bq × List Svf) : List Bq × List Svf :=
  if b = noMudBand then l
  else (l.1.modify b.toNat (Bq.withOffset p v), l.2.modify b.toNat (Svf.withOffset p v))

/-- The state with these instances of BQ and SVF. -/
def State.withFilters (s : State) (l : List Bq × List Svf) : State := { s with bq := l.1, svf := l.2 }

/-- Writing back what `f` makes of an entry that is there. -/
theorem set_getD_eq_modify {α : Type} {l : List α} {i : Nat} {d : α} {f : α → α} (h : i < l.length) :
    l.set i (f (l.getD i d)) = l.modify i f := by
  rw [List.modify_eq_set_getElem?, List.getD_eq_getElem?_getD, List.getElem?_eq_getElem h]
  rfl

/-- `BQ.GOFF` on an instance that exists and is active (rule R177). -/
theorem State.bqGoff_eq {s : State} {i : Nat} (v : F32) (hc : s.copiesOk) (ha : s.unitsActive) (h : i < s.params.neq) :
    s.bqGoff i v = .ok { s with bq := s.bq.modify i (Bq.withOffset s.ctx v) } := by
  obtain ⟨-, ⟨hlength, -⟩, -⟩ := State.copiesOk_iff.1 hc
  obtain ⟨-, hactive, -⟩ := ha
  have hi : i < s.bq.length := hlength ▸ h
  have hlife : (s.bqAt i).life.active = true := State.bqAt_of_lt hi ▸ hactive _ (List.getElem_mem hi)
  rw [State.bqGoff_of_lt v h, Bq.goff_eq s.ctx v hlife, ← set_getD_eq_modify hi]
  rfl

/-- `SVF.GOFF` on an instance that exists and is active (rule R186). -/
theorem State.svfGoff_eq {s : State} {i : Nat} (v : F32) (hc : s.copiesOk) (ha : s.unitsActive)
    (h : i < s.params.neq) : s.svfGoff i v = .ok { s with svf := s.svf.modify i (Svf.withOffset s.ctx v) } := by
  obtain ⟨-, -, ⟨hlength, -⟩, -⟩ := State.copiesOk_iff.1 hc
  obtain ⟨-, -, hactive, -⟩ := ha
  have hi : i < s.svf.length := hlength ▸ h
  have hlife : (s.svfAt i).life.active = true := State.svfAt_of_lt hi ▸ hactive _ (List.getElem_mem hi)
  rw [State.svfGoff_of_lt v h, Svf.goff_eq s.ctx v hlife, ← set_getD_eq_modify hi]
  rfl

section
variable {s : State} (hc : s.copiesOk) (ha : s.unitsActive)
include hc ha

/-- Whatever moves on by operations of the units has the copies and the activity of the state it comes from. -/
theorem Leads.invariants {t : State} {x : Except Raised State} (h : Leads State.Advances id s x) (hx : x = .ok t) :
    t.copiesOk ∧ t.unitsActive :=
  ⟨(h t hx).copiesOk hc, (h t hx).unitsActive ha⟩

/-- Both `GOFF`s on a legal band change the two instances of that band and nothing else (rule R391). -/
theorem State.goffBand_eq {b : Word} (v : F32) (hb : mudBandOk s.params b = true) :
    s.goffBand b v = .ok (s.withFilters (offsetBand s.ctx b v (s.bq, s.svf))) := by
  by_cases hnone : b = noMudBand
  · rw [hnone, State.goffBand_none, offsetBand, if_pos rfl]
    rfl
  · have hband : b.toNat < s.params.neq := (mudBandOk_iff.1 hb).resolve_left hnone
    have hbq := State.bqGoff_eq v hc ha hband
    obtain ⟨hc', ha'⟩ := Leads.invariants hc ha (State.Advances.respected.bqGoff s b.toNat v) hbq
    rw [State.goffBand, if_neg hnone, hbq, Except.bind_ok', State.svfGoff_eq v hc' ha' hband, offsetBand, if_neg hnone]
    rfl

/-- The mud band of the last block, where the band changes, is given the offset 0.0 (rule R393). -/
theorem State.releaseBand_eq {old : Word} (hb : mudBandOk s.params old = true) :
    s.releaseBand old = .ok (s.withFilters (if old = s.pipe.L.eqMudBand then (s.bq, s.svf)
      else offsetBand s.ctx old F32.zero (s.bq, s.svf))) := by
  by_cases hsame : old = s.pipe.L.eqMudBand
  · rw [State.releaseBand, if_pos hsame, if_pos hsame]
    rfl
  · rw [State.releaseBand, if_neg hsame, if_neg hsame]
    exact State.goffBand_eq hc ha F32.zero hb

end

/-! ### The consumers of the supervisor (rule R391) -/

/-- The state with the consumers of the supervisor replaced. -/
def State.withConsumers (s : State) (agc : Agc) (fet : Fet) (sat : Sat) (l : List Bq × List Svf) : State :=
  { s with agc := agc, fet := fet, sat := sat, bq := l.1, svf := l.2 }

/-- What `AGC.EXT` leaves of an active AGC (rule R213). -/
def Agc.driven (p : Ctx) (mode : Bool) (gainDb : F32) (u : Agc) : Agc := { u with K := ⟨mode, gainDb, p.db2lin gainDb⟩ }

/-- What `FET.THOFF` leaves of an active FET (rule R241). -/
def Fet.driven (p : Ctx) (offsetDb : F32) (u : Fet) : Fet := { u with K := ⟨offsetDb, fetThLin p offsetDb⟩ }

/-- What `SAT.DSCALE` leaves of an active SAT (rule R264). -/
def Sat.driven (scale : F32) (u : Sat) : Sat := { u with driveScale := scale }

theorem State.agcExt_eq {s : State} (mode : Bool) (v : F32) (h : s.agc.life.active = true) :
    s.agcExt mode v = .ok { s with agc := s.agc.driven s.ctx mode v } := by
  rw [State.agcExt, Agc.ext, Life.needActive, h]; rfl

theorem State.fetThoff_eq {s : State} (v : F32) (h : s.fet.life.active = true) :
    s.fetThoff v = .ok { s with fet := s.fet.driven s.ctx v } := by
  rw [State.fetThoff, Fet.thoff, Life.needActive, h]; rfl

theorem State.satDscale_eq {s : State} (v : F32) (h : s.sat.life.active = true) :
    s.satDscale v = .ok { s with sat := s.sat.driven v } := by
  rw [State.satDscale, Sat.dscale, Life.needActive, h]; rfl

section
variable {s : State} (hc : s.copiesOk) (ha : s.unitsActive) (hb : mudBandOk s.params s.pipe.L.eqMudBand = true)
include hc ha hb

/-- Active consumers take what they are handed, and nothing else of the state moves. -/
theorem State.driveConsumers_eq (mode : Bool) (gainDb offsetDb scale cutDb : F32) :
    s.driveConsumers mode gainDb offsetDb scale cutDb = .ok (s.withConsumers
      (s.agc.driven s.ctx mode gainDb) (s.fet.driven s.ctx offsetDb) (s.sat.driven scale)
      (offsetBand s.ctx s.pipe.L.eqMudBand cutDb (s.bq, s.svf))) := by
  have hgoff := State.goffBand_eq (s := s.withConsumers (s.agc.driven s.ctx mode gainDb)
    (s.fet.driven s.ctx offsetDb) (s.sat.driven scale) (s.bq, s.svf)) hc ha cutDb hb
  obtain ⟨-, -, -, -, hagc, -, -, hfet, hsat, -⟩ := ha
  exact Except.bind_eq_ok'.2 ⟨_, State.agcExt_eq mode gainDb hagc, Except.bind_eq_ok'.2 ⟨_,
    State.fetThoff_eq offsetDb hfet, Except.bind_eq_ok'.2 ⟨_, State.satDscale_eq scale hsat, hgoff⟩⟩⟩

/-- `PIPE.BEGIN` drives the consumers while the supervisor is on, returns them to neutral when it has been on before,
and leaves them alone otherwise (rule R393). -/
theorem State.beginConsumers_eq (was : Bool) : ∃ agc fet sat l,
    s.beginConsumers was = .ok (s.withConsumers agc fet sat l) ∧
    (s.pipe.L.enabled .xn = true → agc = s.agc.driven s.ctx true s.xn.out.alGainDb ∧
      fet = s.fet.driven s.ctx s.xn.out.compThOffDb ∧ sat = s.sat.driven s.xn.out.satDriveScale) ∧
    (s.pipe.L.enabled .xn = false → was = true → agc = s.agc.driven s.ctx false F32.zero ∧
      fet = s.fet.driven s.ctx F32.zero ∧ sat = s.sat.driven F32.one) ∧
    (s.pipe.L.enabled .xn = false → was = false → agc = s.agc ∧ fet = s.fet ∧ sat = s.sat) ∧
    l = (if s.pipe.L.enabled .xn then offsetBand s.ctx s.pipe.L.eqMudBand s.xn.out.eqMudCutDb (s.bq, s.svf)
      else if was then offsetBand s.ctx s.pipe.L.eqMudBand F32.zero (s.bq, s.svf) else (s.bq, s.svf)) := by
  unfold State.beginConsumers
  cases s.pipe.L.enabled .xn with
  | true => exact ⟨_, _, _, _, State.driveConsumers_eq hc ha hb .., fun _ => ⟨rfl, rfl, rfl⟩, nofun, nofun, rfl⟩
  | false =>
    cases was with
    | true => exact ⟨_, _, _, _, State.driveConsumers_eq hc ha hb .., nofun, fun _ _ => ⟨rfl, rfl, rfl⟩, nofun, rfl⟩
    | false => exact ⟨s.agc, s.fet, s.sat, (s.bq, s.svf), rfl, nofun, nofun, fun _ _ => ⟨rfl, rfl, rfl⟩, rfl⟩

end

/-! ### The check of the units selected (rule R393) -/

/-- What is enabled is configured. -/
theorem enabled_imp_iff {on ok : Bool} : (!on || ok) = true ↔ (on = true → ok = true) := by
  cases on <;> simp

/-- What is enabled is configured, of the two units that a select bit chooses between. -/
theorem enabled_imp_select_iff {on sel ok₁ ok₀ : Bool} : (!on || if sel then ok₁ else ok₀) = true ↔
    (on = true → sel = false → ok₀ = true) ∧ (on = true → sel = true → ok₁ = true) := by
  cases on <;> cases sel <;> simp

theorem State.bandReady_iff {s : State} {c : PipeP} {b : Nat} : s.bandReady c b = true ↔
    (c.eqBandEn.getLsbD b = true → (c.eqKind.getLsbD b = true → (s.svfAt b).life.configured = true) ∧
      (c.eqKind.getLsbD b = false → (s.bqAt b).life.configured = true)) :=
  enabled_imp_select_iff.trans ⟨fun ⟨hbq, hsvf⟩ hen => ⟨hsvf hen, hbq hen⟩,
    fun h => ⟨fun hen => (h hen).2, fun hen => (h hen).1⟩⟩

theorem State.bandsReady_iff {s : State} {c : PipeP} {n : Nat} : (List.range n).all (s.bandReady c) = true ↔
    ∀ b, b < n → c.eqBandEn.getLsbD b = true → (c.eqKind.getLsbD b = true → (s.svfAt b).life.configured = true) ∧
      (c.eqKind.getLsbD b = false → (s.bqAt b).life.configured = true) := by
  simp only [List.all_eq_true, List.mem_range, State.bandReady_iff]

/-! ### PIPE.BEGIN (rules R393, R470) -/

/-- `PIPE.BEGIN` runs the operation of PIPE, which returns no word. -/
theorem exec_pipeBegin (s : State) : exec .pipeBegin s = conclude s (s.pipeBegin >>= fun t => pure (t, [])) := rfl

section
variable {s : State}

theorem State.pipeBegin_of_notReady {r : Raised} (h : s.pipe.life.needReady = .error r) : s.pipeBegin = .error r := by
  rw [State.pipeBegin, h]; rfl

theorem State.pipeBegin_inBlock (h : s.pipe.life.needReady = .ok ()) (hb : s.pipe.inBlock = true) :
    s.pipeBegin = .error .sequence := by
  rw [State.pipeBegin, h, hb]; rfl

theorem State.pipeBegin_unselected (h : s.pipe.life.needReady = .ok ()) (hb : s.pipe.inBlock = false)
    (hsel : s.selectedReady s.pipe.P = false) : s.pipeBegin = .error .unconfigured := by
  rw [State.pipeBegin, h, hb, hsel]; rfl

/-- Past its checks, `PIPE.BEGIN` latches, releases the old band, deals with the consumers and enters the block. -/
theorem State.pipeBegin_eq {t u : State} (h : s.pipe.life.needReady = .ok ()) (hb : s.pipe.inBlock = false)
    (hsel : s.selectedReady s.pipe.P = true) (ht : s.latch.releaseBand s.pipe.L.eqMudBand = .ok t)
    (hu : t.beginConsumers (s.pipe.L.enabled .xn) = .ok u) :
    s.pipeBegin = .ok { u with pipe := { u.pipe with latency := u.reportedLatency, inBlock := true } } := by
  simp only [State.pipeBegin, h, hb, hsel, ht, hu, Bool.not_false, require_true, Except.bind_ok', Except.pure_ok']

/-- The mud band that a configured PIPE has to latch is legal (rules R66, R387). -/
theorem State.pipeLegal.mudBandOk (hl : s.pipeLegal) (hc : s.pipe.life.configured = true) :
    mudBandOk s.params s.pipe.P.eqMudBand = true := by
  obtain ⟨-, -, -, -, hmud⟩ := pipeCfgOk_iff.1 (hl hc)
  exact hmud

end

/-- Settles O52: the checks in order; then the two steps that move units, the old band's release and the consumers; then
the units that a configuration selects. -/
theorem pipeBeginLatchesTheConfiguration : Obligations.PipeBeginLatchesTheConfiguration := by
  intro s
  refine ⟨fun hact => ?_, fun hact hconf => ?_, fun hact hconf hblock => ?_, fun hact hconf hblock hsel => ?_,
    fun hact hconf hblock hsel hcopies hunits hband hlegal => ?_, fun c => ?_⟩
  · exact conclude_bind_error (State.pipeBegin_of_notReady (Life.needReady_inactive hact))
  · exact conclude_bind_error (State.pipeBegin_of_notReady (Life.needReady_unconfigured hact hconf))
  · exact conclude_bind_error (State.pipeBegin_inBlock (Life.needReady_ok hact hconf) hblock)
  · exact conclude_bind_error (State.pipeBegin_unselected (Life.needReady_ok hact hconf) hblock hsel)
  · have hrelease := State.releaseBand_eq (s := s.latch) hcopies hunits (mudBandOk_iff.2 hband)
    obtain ⟨hcopies', hunits'⟩ := Leads.invariants (s := s.latch) hcopies hunits
      (State.Advances.respected.releaseBand s.latch s.pipe.L.eqMudBand) hrelease
    obtain ⟨agc, fet, sat, l, hbegin, hdriven, hneutral, hkept, rfl⟩ :=
      State.beginConsumers_eq hcopies' hunits' (hlegal.mudBandOk hconf) (s.pipe.L.enabled .xn)
    have hrun := State.pipeBegin_eq (Life.needReady_ok hact hconf) hblock hsel hrelease hbegin
    rw [exec_pipeBegin, hrun]
    exact ⟨_, rfl, rfl, rfl, rfl, rfl, rfl, rfl, rfl, rfl, rfl, rfl, rfl, rfl, rfl, rfl, rfl, hdriven, hneutral, hkept,
      rfl⟩
  · simp only [State.selectedReady, Bool.and_eq_true, enabled_imp_select_iff, and_assoc]
    simp only [enabled_imp_iff, State.bandsReady_iff]
    rfl

/-! ### PIPE.END (rule R394) -/

/-- `PIPE.END` runs the operation of PIPE, which returns no word. -/
theorem exec_pipeEnd (s : State) : exec .pipeEnd s = conclude s (s.pipeEnd >>= fun t => pure (t, [])) := rfl

section
variable {s : State}

theorem State.pipeEnd_inactive (h : s.pipe.life.active = false) : s.pipeEnd = .error .inactive := by
  rw [State.pipeEnd, Life.needActive, h]; rfl

theorem State.pipeEnd_outside (h : s.pipe.life.active = true) (hb : s.pipe.inBlock = false) :
    s.pipeEnd = .error .sequence := by
  rw [State.pipeEnd, Life.needActive, h, hb]; rfl

/-- With the supervisor off the block just ends. -/
theorem State.pipeEnd_off (h : s.pipe.life.active = true) (hb : s.pipe.inBlock = true)
    (hxn : s.pipe.L.enabled .xn = false) : s.pipeEnd = .ok { s with pipe := { s.pipe with inBlock := false } } := by
  rw [State.pipeEnd, Life.needActive, h, hb, hxn]; rfl

/-- With the supervisor on the block is analysed and the outputs handed on before it ends. -/
theorem State.pipeEnd_on {t u : State} (h : s.pipe.life.active = true) (hb : s.pipe.inBlock = true)
    (hxn : s.pipe.L.enabled .xn = true) (ht : s.xnAnalyze = .ok t) (hu : t.xnDistribute = .ok u) :
    s.pipeEnd = .ok { u with pipe := { u.pipe with inBlock := false } } := by
  simp only [State.pipeEnd, Life.needActive, h, hb, hxn, if_true, ht, hu, require_true, Except.bind_ok',
    Except.pure_ok']

/-- A ready XN is analysed, its block empty or not (rule R375). -/
theorem Xn.analyze_ok {u : Xn} (p : Ctx) (h : u.life.needReady = .ok ()) : ∃ v, u.analyze p = .ok v :=
  ⟨_, by rw [Xn.analyze, h]; rfl⟩

theorem State.xnAnalyze_eq {u : Xn} (h : s.xn.analyze s.ctx = .ok u) : s.xnAnalyze = .ok { s with xn := u } := by
  rw [State.xnAnalyze, h]; rfl

theorem State.unitsActive.xn_active (h : s.unitsActive) : s.xn.life.active = true := by
  obtain ⟨-, -, -, -, -, -, -, -, -, -, -, -, -, -, -, -, hxn⟩ := h
  exact hxn

end

/-- Settles O53: the checks in order, the block with the supervisor off, then the analysis and its distribution. -/
theorem pipeEndAnalyzesAndDistributes : Obligations.PipeEndAnalyzesAndDistributes := by
  intro s
  refine ⟨fun hact => ?_, fun hact hblock => ?_, fun hact hblock hxn => ?_,
    fun hact hblock hxn hcopies hunits hconf hband => ?_⟩
  · exact conclude_bind_error (State.pipeEnd_inactive hact)
  · exact conclude_bind_error (State.pipeEnd_outside hact hblock)
  · exact conclude_put id (State.pipeEnd_off hact hblock hxn)
  · obtain ⟨u, hu⟩ := Xn.analyze_ok s.ctx (Life.needReady_ok hunits.xn_active hconf)
    have hanalyze := State.xnAnalyze_eq hu
    obtain ⟨hcopies', hunits'⟩ :=
      Leads.invariants hcopies hunits (State.Advances.respected.xnAnalyze s) hanalyze
    have hdrive := State.driveConsumers_eq hcopies' hunits' (mudBandOk_iff.2 hband) true u.out.alGainDb u.out.compThOffDb
      u.out.satDriveScale u.out.eqMudCutDb
    have hrun := State.pipeEnd_on hact hblock hxn hanalyze hdrive
    rw [exec_pipeEnd, hrun]
    exact ⟨_, u, hu, rfl, rfl, rfl, rfl, rfl, rfl, rfl, rfl, rfl, rfl, rfl, rfl, rfl, rfl, rfl, rfl, rfl, rfl, rfl,
      rfl⟩

end Sys2Proof.Machine
end

section
/-! The dynamics units GATE, AGC, DEESS, COMP and FET (rules R200 to R242), with the control inputs of AGC, FET and SAT
(rules R213, R241, R264). How a PROC of one channel ends is said once for any such unit; a unit then adds its own step
in the form in which the rules write it. -/

namespace Sys2Proof.Machine

/-! ### Control inputs (rules R213, R241, R264) -/

section
variable {s : State} (v : F32)

theorem State.agcExt_inactive (mode : Bool) (h : s.agc.life.active = false) : s.agcExt mode v = .error .inactive := by
  rw [State.agcExt, Agc.ext, Life.needActive, h]; rfl

theorem State.fetThoff_inactive (h : s.fet.life.active = false) : s.fetThoff v = .error .inactive := by
  rw [State.fetThoff, Fet.thoff, Life.needActive, h]; rfl

theorem State.satDscale_inactive (h : s.sat.life.active = false) : s.satDscale v = .error .inactive := by
  rw [State.satDscale, Sat.dscale, Life.needActive, h]; rfl

end

/-- The mode of `AGC.EXT` is the last bit of its command word (rules R111, R213). -/
theorem encode_agcExt (m : Bool) (v : Word) :
    encode (.agcExt m v) = [if m then 0x04300001 else 0x04300000, v] := by
  cases m <;> rfl

/-- Settles O24: the words, then each command turned away and run; `db2lin` is the power that the rules write. -/
theorem controlInputsAreWrittenWhileActive : Obligations.ControlInputsAreWrittenWhileActive := by
  intro s m v
  refine ⟨encode_agcExt m v, rfl, rfl, fun h => ?_, fun h => ?_, fun h => ?_, fun h => ?_, fun h => ?_, fun h => ?_⟩
  · exact conclude_bind_error (State.agcExt_inactive v m h)
  · exact conclude_put id (State.agcExt_eq m v h)
  · exact conclude_bind_error (State.fetThoff_inactive v h)
  · exact conclude_put id (State.fetThoff_eq v h)
  · exact conclude_bind_error (State.satDscale_inactive v h)
  · exact conclude_put id (State.satDscale_eq v h)

/-! ### A PROC of one channel (rules R118, R423, R424) -/

/-- A PROC that checks its channel, then the flags `l` of its unit, and then cannot fail: it is turned away in order,
and otherwise completes with the state and the sample computed. -/
theorem State.channelProc_outcomes {s t : State} {i : Instr} {ch : BitVec 4} {l : Life} {y : F32}
    {x : Except Raised (State × F32)}
    (hexec : exec i s = conclude s (require (channelOk s.params ch) .illegal >>= fun _ =>
      x >>= fun (t, y) => pure (t, [y])))
    (hx : x = l.needReady >>= fun _ => pure (t, y)) :
    s.turnsAway i (channelOk s.params ch) l ∧
    (ch.toNat < s.params.nch → l.active = true → l.configured = true → exec i s = .next (t.complete [y])) := by
  refine ⟨State.turnsAway_of_require hexec fun r hr => ?_, fun hch hactive hconfigured => ?_⟩
  · rw [hx, hr]; rfl
  · have hok : x = .ok (t, y) := by rw [hx, Life.needReady_ok hactive hconfigured]; rfl
    exact hexec.trans (conclude_require_ok (decide_eq_true hch) hok)

/-! ### GATE (rules R204 to R206) -/

/-- The target of the smoothing as a choice (rule R204). -/
theorem gateTarget_eq (c : GateC) (st : GateState) : gateTarget c st = if st = .opened then F32.one else c.rangeF := by
  cases st <;> rfl

/-- One sample of the gate, with what the transition computes named by its two parts (rule R204). -/
theorem gateStep_eq (p : Ctx) (c : GateC) (g : GateS) (x : F32) : gateStep p c g x =
    let e := envStep p c.a c.r g.envelope (F32.abs x)
    let st := gateNext c g.state g.holdCnt e
    let gain := gateGain p c g.gain (if st.1 = .opened then F32.one else c.rangeF)
    (⟨e, st.1, st.2, gain⟩, p.mul x gain) := by
  dsimp only
  rw [← gateTarget_eq]
  rfl

theorem State.gateProc_eq (s : State) (c : Nat) (x : F32) : s.gateProc c x = s.gate.life.needReady >>= fun _ =>
    let r := gateStep s.ctx s.gate.C (s.gate.ch.getD c GateS.fresh) x
    pure ({ s with gate := { s.gate with ch := s.gate.ch.set c r.1 } }, r.2) := by
  rw [State.gateProc, Gate.proc, bind_assoc]; rfl

/-- Settles O29: the checks in order, then one sample of the gate on its channel. -/
theorem gateDetectsThenSmooths : Obligations.GateDetectsThenSmooths := by
  intro s ch x
  have hproc := State.gateProc_eq s ch.toNat x
  rw [gateStep_eq] at hproc
  exact ⟨congrArg ([·, x]) (commandWord_mode_zero ch 0 rfl), State.channelProc_outcomes rfl hproc⟩

/-- An open gate whose hold timer has not expired stays open, and its counter moves on by one at most (rule R205). -/
theorem gateNext_opened (c : GateC) {hold : Word} (e : F32) (h : hold.toNat < c.holdSamples.toNat) :
    (gateNext c .opened hold e).1 = .opened ∧ (gateNext c .opened hold e).2.toNat ≤ hold.toNat + 1 := by
  unfold gateNext
  dsimp only
  by_cases hloud : F32.le c.closeTh e = true
  · rw [if_pos hloud]
    exact ⟨rfl, Nat.zero_le _⟩
  · rw [if_neg hloud, if_neg (Nat.not_le.2 h)]
    exact ⟨rfl, (BitVec.toNat_add ..).trans_le (Nat.mod_le ..)⟩

/-- So does a channel of the gate over one sample. -/
theorem gateStep_opened (p : Ctx) {c : GateC} {g : GateS} (x : F32) (hopen : g.state = .opened)
    (h : g.holdCnt.toNat < c.holdSamples.toNat) :
    (gateStep p c g x).1.state = .opened ∧ (gateStep p c g x).1.holdCnt.toNat ≤ g.holdCnt.toNat + 1 := by
  rw [gateStep_eq, hopen]
  exact gateNext_opened c _ h

/-- The invariant of the hold timer: an open gate stays open for as many samples as are left on its counter. -/
theorem gateRun_opened (p : Ctx) (c : GateC) (xs : List F32) (g : GateS) (hopen : g.state = .opened)
    (hleft : g.holdCnt.toNat + xs.length ≤ c.holdSamples.toNat) : (gateRun p c g xs).state = .opened := by
  induction xs generalizing g with
  | nil => exact hopen
  | cons x xs ih =>
    rw [List.length_cons] at hleft
    obtain ⟨hopen', hcount⟩ := gateStep_opened p (c := c) x hopen (by omega)
    exact ih (gateStep p c g x).1 hopen' (by omega)

/-- Settles O30: from a counter at 0 the whole hold time is left. -/
theorem gateHoldsBeforeItCloses : Obligations.GateHoldsBeforeItCloses := by
  intro p c g xs hopen hcount hlength
  refine gateRun_opened p c xs g hopen ?_
  rw [hcount]
  exact (Nat.zero_add _).trans_le hlength

/-! ### AGC (rule R214) -/

section
variable (p : Ctx) (P : AgcP) {K : AgcK} (C : AgcC) (g : AgcS) (x : F32)

/-- External mode: the gain is smoothed toward the cached target. -/
theorem agcStep_external (hmode : K.extMode = true) : agcStep p P K C g x =
    (⟨envStep p C.a C.r g.envelope (F32.abs x), onePole p C.a g.sgain K.extTgt⟩,
      p.mul x (onePole p C.a g.sgain K.extTgt)) := if_pos hmode

/-- Internal mode below the level floor of 1e-4: the sample passes. -/
theorem agcStep_quiet (hmode : K.extMode = false)
    (hquiet : F32.lt (envStep p C.a C.r g.envelope (F32.abs x)) 0x38D1B717 = true) :
    agcStep p P K C g x = (⟨envStep p C.a C.r g.envelope (F32.abs x), g.sgain⟩, x) :=
  (if_neg (Bool.eq_false_iff.1 hmode)).trans (if_pos hquiet)

/-- Internal mode from the level floor on: the clamped distance to the target is applied. -/
theorem agcStep_level (hmode : K.extMode = false)
    (hlevel : F32.lt (envStep p C.a C.r g.envelope (F32.abs x)) 0x38D1B717 = false) :
    agcStep p P K C g x = (⟨envStep p C.a C.r g.envelope (F32.abs x), g.sgain⟩,
      p.mul x (p.db2lin (agcGainDb p P (envStep p C.a C.r g.envelope (F32.abs x))))) :=
  (if_neg (Bool.eq_false_iff.1 hmode)).trans (if_neg (Bool.eq_false_iff.1 hlevel))

end

theorem State.agcProc_eq (s : State) (c : Nat) (x : F32) : s.agcProc c x = s.agc.life.needReady >>= fun _ =>
    let r := agcStep s.ctx s.agc.P s.agc.K s.agc.C (s.agc.ch.getD c AgcS.fresh) x
    pure ({ s with agc := { s.agc with ch := s.agc.ch.set c r.1 } }, r.2) := by
  rw [State.agcProc, Agc.proc, bind_assoc]; rfl

/-- Settles O31: the checks in order, then one sample of AGC by its mode and its level. -/
theorem autoLevelSeeksItsTarget : Obligations.AutoLevelSeeksItsTarget := by
  intro s ch x
  obtain ⟨haway, hdone⟩ := State.channelProc_outcomes (i := .agcProc ch x) rfl (State.agcProc_eq s ch.toNat x)
  refine ⟨congrArg ([·, x]) (commandWord_mode_zero ch 0 rfl), haway, fun hch hactive hconfigured => ?_⟩
  have hstep := hdone hch hactive hconfigured
  unfold AgcS.fresh at hstep
  refine ⟨fun hmode => ?_, fun hmode hquiet => ?_, fun hmode hlevel => ?_⟩
  · rw [agcStep_external _ _ _ _ _ hmode] at hstep
    exact hstep
  · rw [agcStep_quiet _ _ _ _ _ hmode hquiet] at hstep
    exact hstep
  · rw [agcStep_level _ _ _ _ _ hmode hlevel] at hstep
    exact hstep

/-! ### DEESS (rule R222) -/

theorem State.deessProc_eq (s : State) (c : Nat) (x : F32) : s.deessProc c x = s.deess.life.needReady >>= fun _ =>
    let r := deessStep s.ctx s.deess.C (s.deess.ch.getD c DeessS.fresh) x
    pure ({ s with deess := { s.deess with ch := s.deess.ch.set c r.1 } }, r.2) := by
  rw [State.deessProc, Deess.proc, bind_assoc]; rfl

/-- Settles O32: the checks in order, then one sample of the de-esser, whose crossover is the filter step of type
`LowPass`. -/
theorem deEsserActsOnTheHighBand : Obligations.DeEsserActsOnTheHighBand := fun s ch x =>
  ⟨congrArg ([·, x]) (commandWord_mode_zero ch 0 rfl),
    State.channelProc_outcomes rfl (State.deessProc_eq s ch.toNat x)⟩

/-! ### COMP (rules R230, R231) -/

theorem State.compProc_eq (s : State) (c : Nat) (x : F32) : s.compProc c x = s.comp.life.needReady >>= fun _ =>
    let g := compGain s.ctx s.comp.P s.comp.C (s.comp.gain.getD c F32.one) x
    pure ({ s with comp := { s.comp with gain := s.comp.gain.set c g } },
      s.ctx.mul (s.ctx.mul x g) s.comp.C.makeupLin) := by
  rw [State.compProc, Comp.proc, bind_assoc]; rfl

/-- Settles O33: the checks in order, then one sample of the compressor, whose level and reduction in
dB, static curve and smoothing are those of `compGain`. -/
theorem softKneeCompressorStep : Obligations.SoftKneeCompressorStep := fun s ch x =>
  ⟨congrArg ([·, x]) (commandWord_mode_zero ch 0 rfl),
    State.channelProc_outcomes rfl (State.compProc_eq s ch.toNat x)⟩

/-! ### FET (rule R242) -/

theorem State.fetProc_eq (s : State) (c : Nat) (x : F32) : s.fetProc c x = s.fet.life.needReady >>= fun _ =>
    let xd := s.ctx.mul x s.fet.C.drive
    let e := envStep s.ctx s.fet.C.a s.fet.C.r (s.fet.envelope.getD c F32.zero) (F32.abs xd)
    pure ({ s with fet := { s.fet with envelope := s.fet.envelope.set c e } },
      s.ctx.mul (s.ctx.mul xd (fetGain s.ctx s.fet.K.thLin s.fet.C.expo e)) s.fet.C.makeup) := by
  rw [State.fetProc, Fet.proc, bind_assoc]; rfl

/-- Settles O34: the checks in order, then one sample driven, detected and scaled. -/
theorem fetCompressorStep : Obligations.FetCompressorStep := fun s ch x =>
  ⟨congrArg ([·, x]) (commandWord_mode_zero ch 0 rfl),
    State.channelProc_outcomes rfl (State.fetProc_eq s ch.toNat x)⟩

end Sys2Proof.Machine
end

section
/-! PROC of the saturator and of the stereo widener (rules R265, R273): one sample in the form in which the rules write
it, by the type of the waveshaper and by the mono-bass option, then the command, whose checks come first. -/

namespace Sys2Proof.Machine

/-! ### SAT (rule R265) -/

section
variable (p : Ctx) (P : SatP) (scale : F32) (C : SatC) (t : SatS) (x : F32)

/-- The driven sample: the pre filter's output times `DRIVE`, then times `DRIVE_SCALE` (rule R265). -/
def satDriven : F32 := p.mul (p.mul (bqStep p C.pre t.pre x).2 P.drive) scale

/-- One sample of the saturator, the two filters named by their taps and their outputs. -/
theorem satStep_eq : satStep p P scale C t x =
    let post := bqStep p C.post t.post (satShape p P.type (satDriven p P scale C t x))
    (⟨(bqStep p C.pre t.pre x).1, post.1⟩, post.2) := by
  rw [satStep]; rfl

/-- The soft-clip cubic, with its limits of -1.0 and 1.0 given by their bits (rules R260, R265). -/
theorem satShape_cubic (d : F32) : satShape p .cubic d =
    let k := F32.clamp d 0xBF800000 0x3F800000
    p.sub k (p.div (p.mul (p.mul k k) k) F32.three) := rfl

theorem satShape_tanh (d : F32) : satShape p .tanh d = Num.tanh d := rfl

end

theorem State.satProc_eq (s : State) (c : Nat) (x : F32) : s.satProc c x = s.sat.life.needReady >>= fun _ =>
    let r := satStep s.ctx s.sat.P s.sat.driveScale s.sat.C (s.sat.ch.getD c SatS.fresh) x
    pure ({ s with sat := { s.sat with ch := s.sat.ch.set c r.1 } }, r.2) := by
  rw [State.satProc, Sat.proc, bind_assoc]; rfl

/-- Settles O35: the checks in order, then one sample through the two filters, by the type of the waveshaper between
them. -/
theorem saturatorShapesBetweenItsFilters : Obligations.SaturatorShapesBetweenItsFilters := by
  intro s ch x
  obtain ⟨haway, hdone⟩ := State.channelProc_outcomes (i := .satProc ch x) rfl (State.satProc_eq s ch.toNat x)
  refine ⟨congrArg ([·, x]) (commandWord_mode_zero ch 0 rfl), haway, fun hch hactive hconfigured => ?_⟩
  have hstep := hdone hch hactive hconfigured
  rw [satStep_eq] at hstep
  cases htype : s.sat.P.type with
  | cubic =>
    rw [htype, satShape_cubic] at hstep
    exact hstep
  | tanh =>
    rw [htype, satShape_tanh] at hstep
    exact hstep

/-! ### WID (rule R273) -/

section
variable (p : Ctx) {P : WidP} (k : F32) (w : WidS) (l r : F32)

/-- With mono bass, both stores follow their signal, and the width scales what the lowpass leaves of the side. -/
theorem widStep_monoBass (hmono : P.monoBass = true) : widStep p P k w l r =
    let mid := p.div (p.add l r) F32.two
    let side := p.div (p.sub l r) F32.two
    let bass := lowpassStep p k w.lpm mid
    let low := lowpassStep p k w.lps side
    let m2 := p.add bass (p.sub mid bass)
    let sw := p.mul (p.sub side low) P.width
    (⟨bass, low⟩, p.add m2 sw, p.sub m2 sw) := by
  rw [widStep, hmono]; rfl

/-- Without it, `LPM` and `LPS` are not touched, and the width scales the whole side. -/
theorem widStep_fullSide (hmono : P.monoBass = false) : widStep p P k w l r =
    let mid := p.div (p.add l r) F32.two
    let sw := p.mul (p.div (p.sub l r) F32.two) P.width
    (w, p.add mid sw, p.sub mid sw) := by
  rw [widStep, hmono]; rfl

end

theorem State.widProc_eq (s : State) (i : Nat) (l r : F32) : s.widProc i l r = s.wid.life.needReady >>= fun _ =>
    let y := widStep s.ctx s.wid.P s.wid.k (s.wid.pairs.getD i WidS.fresh) l r
    pure ({ s with wid := { s.wid with pairs := s.wid.pairs.set i y.1 } }, y.2) := by
  rw [State.widProc, Wid.proc, bind_assoc]; rfl

/-- An operation that begins with the check of the flags fails as that check does. -/
theorem State.widProc_error {s : State} {e : Raised} (i : Nat) (l r : F32) (h : s.wid.life.needReady = .error e) :
    s.widProc i l r = .error e := by
  rw [State.widProc_eq, h]; rfl

/-- `WID.PROC` checks its channel pair, then runs the operation of that pair (rule R273). -/
theorem exec_widProc (s : State) (ch : BitVec 4) (l r : Word) : exec (.widProc ch l r) s =
    conclude s (require (pairOk s.params ch) .illegal >>= fun _ =>
      s.widProc (ch.toNat / 2) l r >>= fun (t, l', r') => pure (t, [l', r'])) := rfl

/-- An even channel whose neighbour exists is the first of a pair (rule R118). -/
theorem pairOk_of_even {p : Params} {ch : BitVec 4} (heven : ch.toNat % 2 = 0) (hch : ch.toNat + 1 < p.nch) :
    pairOk p ch = true := by
  simp [pairOk, heven, hch]

/-- A legal pair of a ready widener completes with both samples, and moves the stores of that pair only. -/
theorem exec_widProc_ready {s : State} {ch : BitVec 4} (l r : Word) (hlegal : pairOk s.params ch = true)
    (hready : s.wid.life.needReady = .ok ()) : exec (.widProc ch l r) s =
      let y := widStep s.ctx s.wid.P s.wid.k (s.wid.pairs.getD (ch.toNat / 2) WidS.fresh) l r
      .next (State.complete { s with wid := { s.wid with pairs := s.wid.pairs.set (ch.toNat / 2) y.1 } }
        [y.2.1, y.2.2]) := by
  have hproc := State.widProc_eq s (ch.toNat / 2) l r
  rw [hready] at hproc
  exact (exec_widProc s ch l r).trans (conclude_require_ok hlegal hproc)

/-- Settles O36: the checks in order, then one sample of the pair, with the mono-bass option on or off. -/
theorem widenerScalesTheSide : Obligations.WidenerScalesTheSide := by
  intro s ch l r
  refine ⟨congrArg ([·, l, r]) (commandWord_mode_zero ch 0 rfl),
    State.turnsAway_of_require (exec_widProc s ch l r) fun _ => State.widProc_error (ch.toNat / 2) l r,
    fun heven hch hactive hconfigured => ?_⟩
  have hstep := exec_widProc_ready l r (pairOk_of_even heven hch) (Life.needReady_ok hactive hconfigured)
  refine ⟨fun hmono => ?_, fun hmono => ?_⟩
  · rw [widStep_monoBass _ _ _ _ _ hmono] at hstep
    exact hstep
  · rw [widStep_fullSide _ _ _ _ _ hmono] at hstep
    exact hstep

end Sys2Proof.Machine
end

section
/-! The safety clip of the feedback paths (rule R295). Whatever the curve, `softclip2` is odd, and on a non-negative
number its result is counted by one function of the magnitude, monotone and bounded by that of 2.0: that is all the
bounds and the monotonicity need. -/

namespace Sys2Proof.Machine

/-! ### The sign flipped -/

theorem F32.sign_neg (a : F32) : F32.sign (F32.neg a) = !F32.sign a := by
  rw [F32.neg_eq, F32.sign_ofParts (F32.mag_lt a)]

theorem F32.mag_neg (a : F32) : F32.mag (F32.neg a) = F32.mag a := by
  rw [F32.neg_eq, F32.mag_ofParts (F32.mag_lt a)]

theorem F32.neg_neg (a : F32) : F32.neg (F32.neg a) = a := by
  rw [F32.eq_iff, F32.sign_neg, F32.sign_neg, F32.mag_neg, F32.mag_neg, Bool.not_not]
  exact ⟨rfl, rfl⟩

theorem F32.isNaN_neg (a : F32) : F32.isNaN (F32.neg a) = F32.isNaN a :=
  congrArg (fun m => decide (0x7F800000 < m)) (F32.mag_neg a)

theorem F32.isZero_neg (a : F32) : F32.isZero (F32.neg a) = F32.isZero a :=
  congrArg (fun m => decide (m = 0)) (F32.mag_neg a)

theorem F32.neg_ofParts (neg : Bool) {m : Nat} (h : m < 0x80000000) :
    F32.neg (F32.ofParts neg m) = F32.ofParts (!neg) m := by
  rw [F32.neg_eq, F32.sign_ofParts h, F32.mag_ofParts h]

/-! ### Keys: the numbers in the order of the comparisons (rule R13) -/

theorem F32.key_of_nonneg {a : F32} (h : F32.sign a = false) : F32.key a = F32.mag a :=
  if_neg (Bool.eq_false_iff.1 h)

theorem F32.key_of_neg {a : F32} (h : F32.sign a = true) : F32.key a = -F32.mag a := if_pos h

theorem F32.key_neg (a : F32) : F32.key (F32.neg a) = -F32.key a := by
  unfold F32.key
  rw [F32.sign_neg, F32.mag_neg]
  cases F32.sign a <;> simp

theorem F32.natAbs_key (a : F32) : (F32.key a).natAbs = F32.mag a := by
  unfold F32.key
  split <;> omega

/-- A magnitude within that of 2.0 is that of a number of at most 2.0. -/
theorem F32.le_abs_two {a : F32} : F32.le (F32.abs a) F32.two = true ↔ F32.mag a ≤ 0x40000000 := by
  have hsign : F32.sign (F32.abs a) = false := by rw [F32.abs_eq, F32.sign_ofParts (F32.mag_lt a)]
  have hmag : F32.mag (F32.abs a) = F32.mag a := by rw [F32.abs_eq, F32.mag_ofParts (F32.mag_lt a)]
  have hkey : F32.key F32.two = 0x40000000 := rfl
  have htwo : F32.isNaN F32.two = false := rfl
  rw [F32.le, F32.key_of_nonneg hsign, hkey, htwo, F32.isNaN, hmag]
  simp only [Bool.and_eq_true, Bool.not_eq_true', decide_eq_false_iff_not, decide_eq_true_eq, and_true]
  omega

theorem F32.isNaN_of_mag_le_two {a : F32} (h : F32.mag a ≤ 0x40000000) : F32.isNaN a = false :=
  decide_eq_false (by omega)

/-! ### The hard clamp (rule R14) -/

/-- The clamp to `±2.0` keeps the sign of a number and cuts its magnitude at that of 2.0. -/
theorem clamp_two_eq {v : F32} (hv : F32.isNaN v = false) :
    F32.clamp v 0xC0000000 0x40000000 = F32.ofParts (F32.sign v) (min (F32.mag v) 0x40000000) := by
  have hlow : F32.lt 0xC0000000 v = true ↔ -0x40000000 < F32.key v := (F32.lt_iff_key rfl hv).1
  have hhigh : F32.lt v 0x40000000 = true ↔ F32.key v < 0x40000000 := (F32.lt_iff_key hv rfl).1
  rw [F32.clamp, F32.fmax]
  by_cases hbelow : F32.lt 0xC0000000 v = true
  · rw [if_pos hbelow, F32.fmin]
    rw [hlow] at hbelow
    by_cases habove : F32.lt v 0x40000000 = true
    · rw [if_pos habove]
      rw [hhigh] at habove
      have hmag := F32.natAbs_key v
      rw [min_eq_left (by omega), F32.ofParts_sign_mag]
    · rw [if_neg habove]
      rw [hhigh] at habove
      cases hs : F32.sign v with
      | false =>
        rw [F32.key_of_nonneg hs] at habove
        rw [min_eq_right (by omega)]
        rfl
      | true =>
        rw [F32.key_of_neg hs] at habove
        omega
  · rw [if_neg hbelow]
    rw [hlow] at hbelow
    cases hs : F32.sign v with
    | false =>
      rw [F32.key_of_nonneg hs] at hbelow
      omega
    | true =>
      rw [F32.key_of_neg hs] at hbelow
      rw [min_eq_right (by omega)]
      rfl

/-- A NaN is above no bound, so the clamp ends on the lower one (rules R13, R14). -/
theorem clamp_two_of_isNaN {v : F32} (hv : F32.isNaN v = true) :
    F32.clamp v 0xC0000000 0x40000000 = 0xC0000000 := by
  rw [F32.clamp, F32.fmax, (F32.lt_of_isNaN (.inr hv)).1, if_neg Bool.false_ne_true]
  rfl

/-! ### `softclip2`, case by case -/

section
variable {p : Ctx} {v : F32}

theorem softclip_standard (hcurve : p.softclip2 = .standard) (v : F32) :
    p.softclip v = F32.clamp v 0xC0000000 0x40000000 := by
  rw [Ctx.softclip, hcurve]
  rfl

theorem softclip_other_negative {n : Nat} (hcurve : p.softclip2 = .other n) (hv : F32.isNaN v = false)
    (hz : F32.isZero v = false) (hs : F32.sign v = true) :
    p.softclip v = F32.neg (softclip2Pos n (F32.neg v)) := by
  rw [Ctx.softclip, hcurve]
  simp [hv, hz, hs]

theorem softclip_other_positive {n : Nat} (hcurve : p.softclip2 = .other n) (hv : F32.isNaN v = false)
    (hz : F32.isZero v = false) (hs : F32.sign v = false) : p.softclip v = softclip2Pos n v := by
  rw [Ctx.softclip, hcurve]
  simp [hv, hz, hs]

/-- Every curve is the identity on the zeros. -/
theorem softclip_zero (p : Ctx) (hz : F32.isZero v = true) : p.softclip v = v := by
  have hmag : F32.mag v = 0 := F32.isZero_iff.1 hz
  have hv : F32.isNaN v = false := decide_eq_false (by omega)
  cases hcurve : p.softclip2 with
  | standard =>
    rw [softclip_standard hcurve, clamp_two_eq hv, min_eq_left (by omega), F32.ofParts_sign_mag]
  | other n =>
    rw [Ctx.softclip, hcurve]
    simp [hv, hz]

/-- Every curve is odd. -/
theorem softclip_neg (p : Ctx) (hv : F32.isNaN v = false) : p.softclip (F32.neg v) = F32.neg (p.softclip v) := by
  have hv' : F32.isNaN (F32.neg v) = false := (F32.isNaN_neg v).trans hv
  cases hcurve : p.softclip2 with
  | standard =>
    rw [softclip_standard hcurve, softclip_standard hcurve, clamp_two_eq hv, clamp_two_eq hv', F32.sign_neg,
      F32.mag_neg, F32.neg_ofParts _ ((Nat.min_le_right ..).trans_lt (by decide))]
  | other n =>
    cases hz : F32.isZero v with
    | true => rw [softclip_zero p hz, softclip_zero p ((F32.isZero_neg v).trans hz)]
    | false =>
      have hz' : F32.isZero (F32.neg v) = false := (F32.isZero_neg v).trans hz
      cases hs : F32.sign v with
      | true =>
        rw [softclip_other_negative hcurve hv hz hs, F32.neg_neg,
          softclip_other_positive hcurve hv' hz' (by rw [F32.sign_neg, hs]; rfl)]
      | false =>
        rw [softclip_other_positive hcurve hv hz hs,
          softclip_other_negative hcurve hv' hz' (by rw [F32.sign_neg, hs]; rfl), F32.neg_neg]

end

/-! ### The magnitude of the result -/

/-- The magnitude that a curve gives to a number of magnitude `m`. -/
def clipMag : Curve → Nat → Nat
  | .standard, m => min m 0x40000000
  | .other n, m => runningMax (fun k => min 0x40000000 (F32.mag (Config.softclip2 n (BitVec.ofNat 32 k)))) m

theorem clipMag_zero (c : Curve) : clipMag c 0 = 0 := by
  cases c <;> rfl

theorem clipMag_le (c : Curve) (m : Nat) : clipMag c m ≤ 0x40000000 := by
  cases c with
  | standard => exact Nat.min_le_right ..
  | other n => exact runningMax_le (fun _ => Nat.min_le_left _ _) m

theorem clipMag_mono (c : Curve) {a b : Nat} (h : a ≤ b) : clipMag c a ≤ clipMag c b := by
  cases c with
  | standard => exact min_le_min_right _ h
  | other n => exact runningMax_mono _ h

/-- A curve is not negative on a positive operand, whatever sign its zeros have. -/
theorem key_softclip2Pos (n : Nat) (v : F32) : F32.key (softclip2Pos n v) = clipMag (.other n) (F32.mag v) := by
  have hmag : F32.mag (softclip2Pos n v) = clipMag (.other n) (F32.mag v) := softclip2Pos_mag n v
  by_cases hzero : F32.mag (softclip2Pos n v) = 0
  · have hkey := F32.natAbs_key (softclip2Pos n v)
    omega
  · rw [F32.key_of_nonneg (softclip2Pos_sign hzero), hmag]

section
variable (p : Ctx) {v : F32}

theorem key_softclip_of_nonneg (hv : F32.isNaN v = false) (hs : F32.sign v = false) :
    F32.key (p.softclip v) = clipMag p.softclip2 (F32.mag v) := by
  cases hcurve : p.softclip2 with
  | standard =>
    have hlt : min (F32.mag v) 0x40000000 < 0x80000000 := (Nat.min_le_right ..).trans_lt (by decide)
    rw [softclip_standard hcurve, clamp_two_eq hv, hs, F32.key_of_nonneg (F32.sign_ofParts hlt), F32.mag_ofParts hlt]
    rfl
  | other n =>
    cases hz : F32.isZero v with
    | true => rw [softclip_zero p hz, F32.key_of_nonneg hs, F32.isZero_iff.1 hz, clipMag_zero]
    | false => rw [softclip_other_positive hcurve hv hz hs, key_softclip2Pos]

/-- The negative side follows from the other, the curve being odd. -/
theorem key_softclip_of_neg (hv : F32.isNaN v = false) (hs : F32.sign v = true) :
    F32.key (p.softclip v) = -clipMag p.softclip2 (F32.mag v) := by
  have hv' : F32.isNaN (F32.neg v) = false := (F32.isNaN_neg v).trans hv
  have hs' : F32.sign (F32.neg v) = false := by rw [F32.sign_neg, hs]; rfl
  calc F32.key (p.softclip v)
      = F32.key (p.softclip (F32.neg (F32.neg v))) := by rw [F32.neg_neg]
    _ = -F32.key (p.softclip (F32.neg v)) := by rw [softclip_neg p hv', F32.key_neg]
    _ = -clipMag p.softclip2 (F32.mag v) := by rw [key_softclip_of_nonneg p hv' hs', F32.mag_neg]

theorem mag_softclip (hv : F32.isNaN v = false) :
    F32.mag (p.softclip v) = clipMag p.softclip2 (F32.mag v) := by
  rw [← F32.natAbs_key]
  cases hs : F32.sign v with
  | false => rw [key_softclip_of_nonneg p hv hs, Int.natAbs_natCast]
  | true => rw [key_softclip_of_neg p hv hs, Int.natAbs_neg, Int.natAbs_natCast]

/-- The bound of rule R295, by magnitude. -/
theorem mag_softclip_le (hv : F32.isNaN v = false) : F32.mag (p.softclip v) ≤ 0x40000000 :=
  (mag_softclip p hv).trans_le (clipMag_le ..)

theorem isNaN_softclip (hv : F32.isNaN v = false) : F32.isNaN (p.softclip v) = false :=
  F32.isNaN_of_mag_le_two (mag_softclip_le p hv)

/-- Keys rise through the clip: on either side of zero with the magnitudes, and across it by sign. -/
theorem key_softclip_mono {w : F32} (hv : F32.isNaN v = false) (hw : F32.isNaN w = false)
    (h : F32.key v ≤ F32.key w) : F32.key (p.softclip v) ≤ F32.key (p.softclip w) := by
  cases hsv : F32.sign v with
  | false =>
    rw [F32.key_of_nonneg hsv] at h
    rw [key_softclip_of_nonneg p hv hsv]
    cases hsw : F32.sign w with
    | false =>
      rw [F32.key_of_nonneg hsw] at h
      rw [key_softclip_of_nonneg p hw hsw]
      exact Int.ofNat_le.2 (clipMag_mono _ (Int.ofNat_le.1 h))
    | true =>
      rw [F32.key_of_neg hsw] at h
      have hv0 : F32.mag v = 0 := by omega
      have hw0 : F32.mag w = 0 := by omega
      rw [key_softclip_of_neg p hw hsw, hv0, hw0, clipMag_zero]
      decide
  | true =>
    rw [F32.key_of_neg hsv] at h
    rw [key_softclip_of_neg p hv hsv]
    cases hsw : F32.sign w with
    | false =>
      rw [key_softclip_of_nonneg p hw hsw]
      omega
    | true =>
      rw [F32.key_of_neg hsw] at h
      rw [key_softclip_of_neg p hw hsw]
      exact Int.neg_le_neg (Int.ofNat_le.2 (clipMag_mono _ (by omega)))

/-- Every curve is monotone in the comparisons of rule R13, which fail on a NaN. -/
theorem softclip_mono {w : F32} (h : F32.le v w = true) : F32.le (p.softclip v) (p.softclip w) = true := by
  have hv : F32.isNaN v = false := by
    by_contra hnan
    simp [F32.le, hnan] at h
  have hw : F32.isNaN w = false := by
    by_contra hnan
    simp [F32.le, hnan] at h
  rw [(F32.lt_iff_key hv hw).2] at h
  rw [(F32.lt_iff_key (isNaN_softclip p hv) (isNaN_softclip p hw)).2]
  exact key_softclip_mono p hv hw h

end

/-- Settles O39: the properties that every curve has, then the default one, which cuts magnitudes at that of 2.0. -/
theorem feedbackClipStaysWithinTwo : Obligations.FeedbackClipStaysWithinTwo := by
  intro p v
  refine ⟨fun w => softclip_mono p, fun hcurve hv => ?_, fun hv => F32.le_abs_two.2 (mag_softclip_le p hv),
    softclip_neg p, softclip_zero p, fun hcurve => softclip_standard hcurve v, fun hcurve htwo => ?_⟩
  · rw [softclip_standard hcurve, clamp_two_of_isNaN hv]
  · have hmag : F32.mag v ≤ 0x40000000 := F32.le_abs_two.1 htwo
    rw [softclip_standard hcurve, clamp_two_eq (F32.isNaN_of_mag_le_two hmag), min_eq_left hmag, F32.ofParts_sign_mag]

end Sys2Proof.Machine
end

section
/-! PROC of the two units that read a ring between its samples, the pitch stabilizer and the delay line (rules R284 to
R286, R294 to R298): one sample in the form in which the rules write it, then the command, whose checks come first. -/

namespace Sys2Proof.Machine

/-! ### PITCH (rules R284 to R286) -/

theorem State.pitchProc_eq (s : State) (c : Nat) (x : F32) : s.pitchProc c x = s.pitch.life.needReady >>= fun _ =>
    let r := pitchStep s.ctx s.pitch.C (s.pitch.ch.getD c (PitchS.fresh 0)) x
    pure ({ s with pitch := { s.pitch with ch := s.pitch.ch.set c r.1 } }, r.2) := by
  rw [State.pitchProc, Pitch.proc, bind_assoc]; rfl

/-- Settles O37: the checks in order, then one sample written, read by the two taps and crossfaded. -/
theorem pitchReadsTwoTaps : Obligations.PitchReadsTwoTaps := fun s ch x =>
  ⟨congrArg ([·, x]) (commandWord_mode_zero ch 0 rfl),
    State.channelProc_outcomes rfl (State.pitchProc_eq s ch.toNat x)⟩

/-! ### DLY (rules R294, R297, R298) -/

theorem State.dlyProc_eq (s : State) (c : Nat) (x : F32) : s.dlyProc c x = s.dly.life.needReady >>= fun _ =>
    let r := dlyStep s.ctx s.dly.P s.dly.target (s.dly.ch.getD c (DlyS.fresh 0)) x
    pure ({ s with dly := { s.dly with ch := s.dly.ch.set c r.1 } }, r.2) := by
  rw [State.dlyProc, Dly.proc, bind_assoc]; rfl

/-- Settles O38: the checks in order, then one sample that glides, reads the ring and only then writes it. -/
theorem delayReadsThenWrites : Obligations.DelayReadsThenWrites := fun s ch x =>
  ⟨congrArg ([·, x]) (commandWord_mode_zero ch 0 rfl),
    State.channelProc_outcomes rfl (State.dlyProc_eq s ch.toNat x)⟩

end Sys2Proof.Machine
end

section
/-! PROC of the two reverbs, the combs and allpasses and the feedback delay network (rules R314, R324, R325): the bank,
the chain and the eight lines in the form in which the rules write them, then the command, whose checks come first. -/

namespace Sys2Proof.Machine

/-! ### RVS (rule R314) -/

theorem combBank_cons (p : Ctx) (P : RvsP) (x : F32) (len : Word) (lens : List Word) (c : RvsComb) (cs : List RvsComb)
    (acc : F32) : combBank p P x (len :: lens) (c :: cs) acc =
      ((combStep p P len x c).1 :: (combBank p P x lens cs (p.add acc (combStep p P len x c).2)).1,
       (combBank p P x lens cs (p.add acc (combStep p P len x c).2)).2) := rfl

/-- Each comb advances by itself, and the echoes add up from the left. -/
theorem combBank_eq_zipWith (p : Ctx) (P : RvsP) (x : F32) {lens : List Word} {cs : List RvsComb} (acc : F32)
    (h : lens.length = cs.length) : combBank p P x lens cs acc =
      (List.zipWith (fun len c => (combStep p P len x c).1) lens cs,
       (List.zipWith (fun len c => (combStep p P len x c).2) lens cs).foldl p.add acc) := by
  induction lens generalizing cs acc with
  | nil =>
    obtain rfl := List.length_eq_zero_iff.1 h.symm
    rfl
  | cons len lens ih =>
    obtain ⟨c, cs, rfl⟩ := List.exists_cons_of_length_eq_add_one h.symm
    rw [combBank_cons, ih _ (Nat.succ.inj h), List.zipWith_cons_cons, List.zipWith_cons_cons, List.foldl_cons]

section
variable (p : Ctx)

/-- What allpass after allpass makes of the sample `v`: each is fed the output of the one before. -/
def allpassThrough (l : List (Word × RvsAp)) (v : F32) : F32 := l.foldl (fun u a => (allpassStep p a.1 u a.2).2) v

theorem allpassThrough_cons (a : Word × RvsAp) (l : List (Word × RvsAp)) (v : F32) :
    allpassThrough p (a :: l) v = allpassThrough p l (allpassStep p a.1 v a.2).2 := rfl

theorem allpassChain_cons (n : Nat) (len : Word) (lens : List Word) (a : RvsAp) (as : List RvsAp) (v : F32) :
    allpassChain p (n + 1) (len :: lens) (a :: as) v =
      ((allpassStep p len v a).1 :: (allpassChain p n lens as (allpassStep p len v a).2).1,
       (allpassChain p n lens as (allpassStep p len v a).2).2) := rfl

/-- The chain leaves the allpasses past the first `n` as they are. -/
theorem allpassChain_drop (n : Nat) {lens : List Word} {as : List RvsAp} (v : F32) (h : lens.length = as.length) :
    (allpassChain p n lens as v).1.drop n = as.drop n := by
  induction lens generalizing n as v with
  | nil =>
    obtain rfl := List.length_eq_zero_iff.1 h.symm
    cases n <;> rfl
  | cons len lens ih =>
    obtain ⟨a, as, rfl⟩ := List.exists_cons_of_length_eq_add_one h.symm
    cases n with
    | zero => rfl
    | succ n =>
      rw [allpassChain_cons, List.drop_succ_cons, List.drop_succ_cons]
      exact ih n _ (Nat.succ.inj h)

/-- The chain gives out what the first `n` allpasses in series make of the sample. -/
theorem allpassChain_output (n : Nat) {lens : List Word} {as : List RvsAp} (v : F32) (h : lens.length = as.length) :
    (allpassChain p n lens as v).2 = allpassThrough p ((lens.zip as).take n) v := by
  induction lens generalizing n as v with
  | nil =>
    obtain rfl := List.length_eq_zero_iff.1 h.symm
    cases n <;> rfl
  | cons len lens ih =>
    obtain ⟨a, as, rfl⟩ := List.exists_cons_of_length_eq_add_one h.symm
    cases n with
    | zero => rfl
    | succ n =>
      rw [allpassChain_cons, List.zip_cons_cons, List.take_succ_cons, allpassThrough_cons]
      exact ih n _ (Nat.succ.inj h)

/-- Allpass `j` of the first `n` advances on what those before it make of the sample. -/
theorem allpassChain_getElem? {n j : Nat} {lens : List Word} {as : List RvsAp} (v : F32)
    (h : lens.length = as.length) (hj : j < n) :
    (allpassChain p n lens as v).1[j]? = (lens.zip as)[j]?.map
      (fun a => (allpassStep p a.1 (allpassThrough p ((lens.zip as).take j) v) a.2).1) := by
  induction lens generalizing n j as v with
  | nil =>
    obtain rfl := List.length_eq_zero_iff.1 h.symm
    cases n <;> rfl
  | cons len lens ih =>
    obtain ⟨a, as, rfl⟩ := List.exists_cons_of_length_eq_add_one h.symm
    obtain ⟨n, rfl⟩ := Nat.exists_eq_add_one_of_ne_zero (Nat.ne_zero_of_lt hj)
    rw [allpassChain_cons, List.zip_cons_cons]
    cases j with
    | zero => rfl
    | succ j =>
      rw [List.getElem?_cons_succ, List.getElem?_cons_succ, List.take_succ_cons, allpassThrough_cons]
      exact ih _ (Nat.succ.inj h) (Nat.lt_of_succ_lt_succ hj)

end

theorem State.rvsProc_eq (s : State) (c : Nat) (x : F32) : s.rvsProc c x = s.rvs.life.needReady >>= fun _ =>
    let r := rvsStep s.ctx s.rvs.P s.rvs.clen s.rvs.alen (s.rvs.ch.getD c ⟨[], []⟩) x
    pure ({ s with rvs := { s.rvs with ch := s.rvs.ch.set c r.1 } }, r.2) := by
  rw [State.rvsProc, Rvs.proc, bind_assoc]; rfl

/-- Settles O40: the checks in order, then one sample through the bank and the chain, both by induction on the
memories. -/
theorem schroederReverbStep : Obligations.SchroederReverbStep := by
  intro s ch x
  obtain ⟨haway, hdone⟩ := State.channelProc_outcomes (i := .rvsProc ch x) rfl (State.rvsProc_eq s ch.toNat x)
  refine ⟨congrArg ([·, x]) (commandWord_mode_zero ch 0 rfl), haway, hdone, fun P len k => rfl, fun len a => rfl,
    fun P lens cs as acc v n => ⟨combBank_eq_zipWith s.ctx P x acc, fun h _ => ?_⟩⟩
  exact ⟨allpassChain_drop s.ctx n v h, fun j => allpassChain_getElem? s.ctx v h, allpassChain_output s.ctx n v h⟩

/-! ### FDN (rules R324, R325) -/

/-- Two lists of one length taken together, cell by cell. -/
theorem zipWith_eq_map_range {α β γ : Type} (f : α → β → γ) {l : List α} {m : List β} {n : Nat} (a : α) (b : β)
    (hl : l.length = n) (hm : m.length = n) :
    List.zipWith f l m = (List.range n).map (fun i => f (l.getD i a) (m.getD i b)) := by
  refine List.ext_getElem (by simp [hl, hm]) fun i h _ => ?_
  obtain ⟨hil, him⟩ : i < l.length ∧ i < m.length := by simpa using h
  simp [hil, him]

theorem map_range_eight {α : Type} (f : Nat → α) :
    (List.range 8).map f = [f 0, f 1, f 2, f 3, f 4, f 5, f 6, f 7] := rfl

theorem length_hadamard8 (p : Ctx) (v : List F32) : (hadamard8 p v).length = 8 := rfl

section
variable (p : Ctx) (a b c d e f g h : F32)

theorem butterfly_one : butterfly p 1 [a, b, c, d, e, f, g, h] =
    [p.add a b, p.sub a b, p.add c d, p.sub c d, p.add e f, p.sub e f, p.add g h, p.sub g h] := by
  simp [butterfly, List.range_succ]

theorem butterfly_two : butterfly p 2 [a, b, c, d, e, f, g, h] =
    [p.add a c, p.add b d, p.sub a c, p.sub b d, p.add e g, p.add f h, p.sub e g, p.sub f h] := by
  simp [butterfly, List.range_succ]

theorem butterfly_four : butterfly p 4 [a, b, c, d, e, f, g, h] =
    [p.add a e, p.add b f, p.add c g, p.add d h, p.sub a e, p.sub b f, p.sub c g, p.sub d h] := by
  simp [butterfly, List.range_succ]

end

theorem sumLeft_eight (p : Ctx) (a b c d e f g h : F32) : sumLeft p [a, b, c, d, e, f, g, h] =
    p.add (p.add (p.add (p.add (p.add (p.add (p.add a b) c) d) e) f) g) h := by
  simp only [sumLeft, List.foldl_cons, List.foldl_nil]

/-- What line `i` gives out at the cursor `w`, read at its length (rule R325). -/
def fdnRead (w : Word) (lb : List Memory) (len : List Word) (i : Nat) : F32 :=
  (lb.getD i Memory.unsized).back w (len.getD i 0).toNat

/-- Store `i` of the damping after a sample (rule R325). -/
def fdnStore (p : Ctx) (damp : F32) (m lp : List F32) (i : Nat) : F32 :=
  p.add (p.mul (m.getD i 0) (p.sub F32.one damp)) (p.mul (lp.getD i 0) damp)

/-- One sample of the network, line by line (rule R325). -/
theorem fdnStep_eq (p : Ctx) (P : FdnP) (C : FdnC) (t : FdnS) (x : F32) (hlen : C.len.length = 8)
    (hlp : t.lp.length = 8) (hlb : t.lb.length = 8) : fdnStep p P C t x =
      let d := fdnRead t.wpos t.lb C.len
      let ds := [d 0, d 1, d 2, d 3, d 4, d 5, d 6, d 7]
      let lp := fdnStore p P.damp (hadamard8 p ds) t.lp
      (⟨nextCursor t.wpos (t.lb.headD Memory.unsized).cap, (List.range 8).map lp,
        (List.range 8).map (fun i => (t.lb.getD i Memory.unsized).write t.wpos.toNat
          (p.softclip (p.add x (p.mul C.fbgain (lp i)))))⟩,
       wetMix p P.mix x (p.div (sumLeft p ds) F32.eight)) := by
  have hread : List.zipWith (fun m (len : Word) => m.back t.wpos len.toNat) t.lb C.len =
      (List.range 8).map (fdnRead t.wpos t.lb C.len) := zipWith_eq_map_range _ _ _ hlb hlen
  have hdamp : ∀ m : List F32, m.length = 8 → fdnDamp p P.damp m t.lp =
      (List.range 8).map (fdnStore p P.damp m t.lp) := fun m hm => zipWith_eq_map_range _ _ _ hm hlp
  rw [fdnStep, hread, map_range_eight (fdnRead _ _ _), hdamp _ (length_hadamard8 p _),
    zipWith_eq_map_range _ Memory.unsized 0 hlb (by rw [List.length_map, List.length_range])]
  refine Prod.ext (congrArg (FdnS.mk _ _) (List.map_congr_left fun i hi => ?_)) rfl
  rw [getD_map_range _ _ (List.mem_range.1 hi)]

theorem State.fdnProc_eq (s : State) (c : Nat) (x : F32) : s.fdnProc c x = s.fdn.life.needReady >>= fun _ =>
    let r := fdnStep s.ctx s.fdn.P s.fdn.C (s.fdn.ch.getD c (FdnS.fresh 0)) x
    pure ({ s with fdn := { s.fdn with ch := s.fdn.ch.set c r.1 } }, r.2) := by
  rw [State.fdnProc, Fdn.proc, bind_assoc]; rfl

theorem State.copiesOk.fdn {s : State} (h : s.copiesOk) : s.fdn.fits s.params := by
  obtain ⟨-, -, -, -, -, -, -, -, -, -, -, -, hfdn, -⟩ := State.copiesOk_iff.1 h
  exact hfdn

/-- Settles O41: the checks in order, then one sample line by line, the arrays being of eight; the transform stage by
stage. -/
theorem feedbackDelayNetworkStep : Obligations.FeedbackDelayNetworkStep := by
  intro s ch x
  obtain ⟨haway, hdone⟩ := State.channelProc_outcomes (i := .fdnProc ch x) rfl (State.fdnProc_eq s ch.toNat x)
  refine ⟨congrArg ([·, x]) (commandWord_mode_zero ch 0 rfl), haway, fun hch hactive hconfigured hcopies => ?_,
    fun a b c d e f g h => ?_⟩
  · obtain ⟨hchannels, hlen, harrays⟩ := hcopies.fdn
    have hlt : ch.toNat < s.fdn.ch.length := hchannels ▸ hch
    have hget (d : FdnS) : s.fdn.ch.getD ch.toNat d = s.fdn.ch[ch.toNat] := List.getD_eq_getElem _ d hlt
    obtain ⟨hlp, hlb⟩ := harrays _ (List.getElem_mem hlt)
    have hrun := hdone hch hactive hconfigured
    rw [hget, fdnStep_eq _ _ _ _ _ hlen hlp hlb] at hrun
    simp only [sumLeft_eight] at hrun
    rw [hget]
    exact hrun
  · intro p S D k
    rw [hadamard8, butterfly_one, butterfly_two, butterfly_four]
    rfl

end Sys2Proof.Machine
end

section
/-! The last two units of the family: the oversampler, whose two commands convolve a history with the tap ROM, and PROC
of the lookahead limiter (rules R82, R343 to R345, R354). -/

namespace Sys2Proof.Machine

/-! ### The tap ROM of OS (rule R343) -/

theorem length_osTaps : osTaps.length = 64 := rfl

/-- The ROM is its first half followed by the same words backwards, so it reads the same from either end. -/
theorem reverse_osTaps : osTaps.reverse = osTaps := by
  rw [osTaps, List.reverse_append, List.reverse_reverse]

theorem osTaps_symmetric {n : Nat} (h : n < 64) : osTaps[63 - n]? = osTaps[n]? :=
  calc osTaps[63 - n]? = osTaps.reverse[n]? := (List.getElem?_reverse h).symm
    _ = osTaps[n]? := by rw [reverse_osTaps]

theorem take_osTaps : osTaps.take 32 = osHalf := List.take_left' rfl

/-! ### Histories and dot products (rules R82, R344, R345) -/

/-- A push forgets only words that the history had no room for. -/
theorem push_take (n : Nat) (x : F32) (l : List F32) : push n x (l.take n) = (x :: l).take n := by
  cases n with
  | zero => rfl
  | succ n => rw [push, List.take_succ_cons, List.take_succ_cons, List.take_take, min_eq_left n.le_succ]

/-- Four pushes put the latest sample in front and cut the history once. -/
theorem push_four (n : Nat) (a b c d : F32) (l : List F32) :
    push n d (push n c (push n b (push n a l))) = ([d, c, b, a] ++ l).take n := by
  rw [push.eq_def n a, push_take, push_take, push_take]; rfl

/-- Coefficients given by their indices are multiplied in the order of those indices. -/
theorem dot_map (p : Ctx) (f : Nat → F32) (ks : List Nat) (xs : List F32) :
    dot p (ks.map f) xs = (List.zipWith (fun k h => p.mul (f k) h) ks xs).foldl p.add F32.zero := by
  rw [dot, List.zipWith_map_left]

/-- Every fourth tap, from `ph` on. -/
theorem dot_osPhase (p : Ctx) (ph : Nat) (xs : List F32) : dot p (osPhase ph) xs =
    (List.zipWith (fun k h => p.mul (osTaps.getD (4 * k + ph) 0) h) (List.range 16) xs).foldl p.add F32.zero :=
  dot_map ..

/-- All taps in order. -/
theorem dot_osTaps (p : Ctx) (xs : List F32) : dot p osTaps xs =
    (List.zipWith (fun j h => p.mul (osTaps.getD j 0) h) (List.range 64) xs).foldl p.add F32.zero := by
  have htaps : osTaps = (List.range 64).map (osTaps.getD · 0) :=
    List.ext_getElem (by rw [length_osTaps, List.length_map, List.length_range]) fun i h _ => by simp [h]
  conv_lhs => rw [htaps]
  exact dot_map ..

/-! ### OS.UP and OS.DOWN (rules R344, R345, R424) -/

section
variable {s : State} (ch : BitVec 4) (c : Nat) (x u0 u1 u2 u3 : F32)

theorem exec_osUp (s : State) : exec (.osUp ch x) s = conclude s (require (channelOk s.params ch) .illegal >>= fun _ =>
    s.osUp ch.toNat x >>= fun (t, y0, y1, y2, y3) => pure (t, [y0, y1, y2, y3])) := rfl

theorem exec_osDown (s : State) : exec (.osDown ch u0 u1 u2 u3) s = conclude s
    (require (channelOk s.params ch) .illegal >>= fun _ =>
      s.osDown ch.toNat u0 u1 u2 u3 >>= fun (t, y) => pure (t, [y])) := rfl

theorem State.osUp_inactive (h : s.os.life.active = false) : s.osUp c x = .error .inactive := by
  rw [State.osUp, Os.up, Life.needActive, h]; rfl

theorem State.osDown_inactive (h : s.os.life.active = false) : s.osDown c u0 u1 u2 u3 = .error .inactive := by
  rw [State.osDown, Os.down, Life.needActive, h]; rfl

/-- An active oversampler pushes the sample and gives out the four phases of its history. -/
theorem State.osUp_eq (h : s.os.life.active = true) : s.osUp c x =
    let t := s.os.ch.getD c OsS.fresh
    let uph := push 16 x t.uph
    .ok ({ s with os := { s.os with ch := s.os.ch.set c { t with uph := uph } } },
      osUpPhase s.ctx uph 0, osUpPhase s.ctx uph 1, osUpPhase s.ctx uph 2, osUpPhase s.ctx uph 3) := by
  rw [State.osUp, Os.up, Life.needActive, h]; rfl

/-- An active oversampler pushes the four samples and convolves its history once, with no scaling. -/
theorem State.osDown_eq (h : s.os.life.active = true) : s.osDown c u0 u1 u2 u3 =
    let t := s.os.ch.getD c OsS.fresh
    let dnh := push 64 u3 (push 64 u2 (push 64 u1 (push 64 u0 t.dnh)))
    .ok ({ s with os := { s.os with ch := s.os.ch.set c { t with dnh := dnh } } }, dot s.ctx osTaps dnh) := by
  rw [State.osDown, Os.down, Life.needActive, h]; rfl

end

/-- Settles O42: the checks in order, then the two convolutions of a channel; the ROM is symmetric because it is its own
reverse. -/
theorem oversamplerConvolvesItsHistories : Obligations.OversamplerConvolvesItsHistories := by
  intro s ch x u0 u1 u2 u3
  refine ⟨congrArg ([·, x]) (commandWord_mode_zero ch 0 rfl),
    congrArg ([·, u0, u1, u2, u3]) (commandWord_mode_zero ch 0 rfl), fun hch => ?illegal, fun hch hactive => ?inactive,
    fun hch hactive => ?active, length_osTaps, fun n => osTaps_symmetric, take_osTaps⟩
  case illegal =>
    have hillegal : channelOk s.params ch = false := decide_eq_false (Nat.not_lt.2 hch)
    exact ⟨conclude_require_false hillegal, conclude_require_false hillegal⟩
  case inactive =>
    have hlegal : channelOk s.params ch = true := decide_eq_true hch
    rw [exec_osUp, exec_osDown, hlegal, State.osUp_inactive _ _ hactive, State.osDown_inactive _ _ _ _ _ hactive]
    exact ⟨rfl, rfl⟩
  case active =>
    have hlegal : channelOk s.params ch = true := decide_eq_true hch
    have hup := (exec_osUp ch x s).trans (conclude_require_ok hlegal (State.osUp_eq ch.toNat x hactive))
    have hdown := (exec_osDown ch u0 u1 u2 u3 s).trans
      (conclude_require_ok hlegal (State.osDown_eq ch.toNat u0 u1 u2 u3 hactive))
    simp only [osUpPhase, dot_osPhase] at hup
    simp only [push_four, dot_osTaps] at hdown
    exact ⟨hup, hdown⟩

/-! ### LIM (rule R354) -/

theorem State.limProc_eq (s : State) (c : Nat) (x : F32) : s.limProc c x = s.lim.life.needReady >>= fun _ =>
    let r := limStep s.ctx s.lim.C (s.lim.ch.getD c (LimS.fresh 0)) x
    pure ({ s with lim := { s.lim with ch := s.lim.ch.set c r.1 } }, r.2) := by
  rw [State.limProc, Lim.proc, bind_assoc]; rfl

/-- Settles O43: the checks in order, then one sample written, its peak estimated and the gain applied to the delayed
sample. -/
theorem limiterGainOnTheDelayedSample : Obligations.LimiterGainOnTheDelayedSample := fun s ch x =>
  ⟨congrArg ([·, x]) (commandWord_mode_zero ch 0 rfl),
    State.channelProc_outcomes rfl (State.limProc_eq s ch.toNat x)⟩

end Sys2Proof.Machine
end

section
/-! The supervisor's two commands, and the commands that reset and configure PIPE (rules R374, R375, R386, R387): what
the operation of the unit or of PIPE does past its checks, then the command. -/

namespace Sys2Proof.Machine

/-! ### XN.ACC (rule R374) -/

/-- `XN.ACC` checks its channel, then gathers the sample (rule R374). -/
theorem exec_xnAcc (s : State) (ch : BitVec 4) (x : Word) : exec (.xnAcc ch x) s =
    conclude s (require (channelOk s.params ch) .illegal >>= fun _ => s.xnAcc ch.toNat x >>= fun t => pure (t, [])) :=
  rfl

theorem State.xnAcc_error {s : State} {r : Raised} (c : Nat) (x : F32) (h : s.xn.life.needReady = .error r) :
    s.xnAcc c x = .error r := by
  rw [State.xnAcc, Xn.gather, h]; rfl

/-- A ready supervisor moves the one-poles of the channel, and from their new stores the accumulators. -/
theorem State.xnAcc_eq {s : State} (c : Nat) (x : F32) (h : s.xn.life.needReady = .ok ()) :
    s.xnAcc c x =
      let l := xnStores s.ctx s.xn.klp (s.xn.lps.getD c Six.zero) x
      .ok { s with xn := { s.xn with lps := s.xn.lps.set c l, acc := xnGather s.ctx s.xn.acc l x } } := by
  rw [State.xnAcc, Xn.gather, h]; rfl

/-- Settles O45: the checks in order, then the sample gathered. -/
theorem supervisorGathersStatistics : Obligations.SupervisorGathersStatistics := by
  intro s ch x
  refine ⟨congrArg ([·, x]) (commandWord_mode_zero ch 0 rfl),
    State.turnsAway_of_require (exec_xnAcc s ch x) fun r => State.xnAcc_error ch.toNat x,
    fun hch hactive hconfigured => ?_⟩
  have hacc := State.xnAcc_eq ch.toNat x (Life.needReady_ok hactive hconfigured)
  exact (exec_xnAcc s ch x).trans (conclude_require_ok (decide_eq_true hch) hacc)

/-! ### XN.ANALYZE (rule R375) -/

/-- `XN.ANALYZE` has no field to check and returns the five outputs (rule R375). -/
theorem exec_xnAnalyze (s : State) : exec .xnAnalyze s =
    conclude s (s.xnAnalyze >>= fun t => pure (t, t.xn.out.words)) := rfl

theorem State.xnAnalyze_error {s : State} {r : Raised} (h : s.xn.life.needReady = .error r) :
    s.xnAnalyze = .error r := by
  rw [State.xnAnalyze, Xn.analyze, h]; rfl

/-- An empty block leaves the supervisor as it is (rule R375). -/
theorem Xn.analyze_empty {u : Xn} (p : Ctx) (h : u.life.needReady = .ok ()) (hn : u.acc.n = 0) :
    u.analyze p = .ok u := by
  rw [Xn.analyze, h, if_pos hn]; rfl

/-- A block with samples gives new outputs and empty sums (rule R375). -/
theorem Xn.analyze_block {u : Xn} (p : Ctx) (h : u.life.needReady = .ok ()) (hn : u.acc.n ≠ 0) :
    u.analyze p = .ok { u with acc := XnAcc.empty, out := xnOutputs p u.P.targetRmsDb u.acc u.out } := by
  rw [Xn.analyze, h, if_neg hn]; rfl

/-- Whatever the analysis leaves of XN, the command returns its outputs. -/
theorem exec_xnAnalyze_ok {s : State} {u : Xn} (h : s.xn.analyze s.ctx = .ok u) :
    exec .xnAnalyze s = .next (State.complete { s with xn := u } u.out.words) := by
  rw [exec_xnAnalyze, State.xnAnalyze_eq h]; rfl

/-- Settles O46: the checks in order, then the empty block and the one with samples. -/
theorem supervisorAnalyzesTheBlock : Obligations.SupervisorAnalyzesTheBlock := fun s =>
  ⟨rfl, State.turnsAway_of_require (exec_xnAnalyze s) fun _ => State.xnAnalyze_error,
    fun hactive hconfigured hn => exec_xnAnalyze_ok (Xn.analyze_empty s.ctx (Life.needReady_ok hactive hconfigured) hn),
    fun hactive hconfigured hn => exec_xnAnalyze_ok (Xn.analyze_block s.ctx (Life.needReady_ok hactive hconfigured) hn)⟩

/-! ### PIPE.CFG (rule R387) -/

/-- No bit of a word is set at or above `n`. -/
theorem ushiftRight_eq_zero_iff {w : Word} {n : Nat} : w >>> n = 0 ↔ w.toNat < 2 ^ n := by
  rw [← BitVec.toNat_inj, BitVec.toNat_ushiftRight, Nat.shiftRight_eq_div_pow]
  exact Nat.div_eq_zero_iff_lt (Nat.two_pow_pos n)

/-- The operand check of `PIPE.CFG` fails exactly on the words with a bit that has no meaning (rule R387). -/
theorem pipeCfgOk_eq_false_iff {p : Params} {en sel kind bands mud : Word} :
    pipeCfgOk p ⟨en, sel, kind, bands, mud⟩ = false ↔ en >>> 12 ≠ 0 ∨ sel >>> 2 ≠ 0 ∨
      (p.neq < 32 ∧ (kind >>> p.neq ≠ 0 ∨ bands >>> p.neq ≠ 0)) ∨ (mud ≠ 0xFFFFFFFF ∧ p.neq ≤ mud.toNat) := by
  simp only [← Bool.not_eq_true, pipeCfgOk_iff, enOk_iff, selOk_iff, bandMaskOk_iff, mudBandOk_iff, ne_eq,
    ushiftRight_eq_zero_iff, ← Nat.not_lt]
  tauto

/-- `PIPE.CFG` runs the operation of PIPE, which checks the words first (rule R387). -/
theorem exec_pipeCfg (s : State) (en sel kind bands mud : Word) : exec (.pipeCfg en sel kind bands mud) s =
    conclude s (s.pipeCfg ⟨en, sel, kind, bands, mud⟩ >>= fun t => pure (t, [])) := rfl

theorem State.pipeCfg_error {s : State} {P : PipeP} (h : pipeCfgOk s.params P = false) :
    s.pipeCfg P = .error .param := by
  rw [State.pipeCfg, h]; rfl

theorem State.pipeCfg_eq {s : State} {P : PipeP} (h : pipeCfgOk s.params P = true) :
    s.pipeCfg P = .ok { s with pipe := s.pipe.cfg P } := by
  rw [State.pipeCfg, h]; rfl

/-- Settles O48: the words refused and the words written. -/
theorem pipeConfigurationIsChecked : Obligations.PipeConfigurationIsChecked := fun _ _ _ _ _ _ =>
  ⟨rfl, fun hbad => conclude_bind_error (State.pipeCfg_error (pipeCfgOk_eq_false_iff.2 hbad)),
    fun hgood => conclude_put id (State.pipeCfg_eq (Bool.eq_true_of_not_eq_false (mt pipeCfgOk_eq_false_iff.1 hgood)))⟩

/-! ### PIPE.RST (rule R386) -/

theorem Pipe.midBlock_iff {u : Pipe} : u.midBlock = true ↔ u.life.active = true ∧ u.inBlock = true :=
  Bool.and_eq_true_iff

theorem Pipe.midBlock_eq_false_iff {u : Pipe} :
    u.midBlock = false ↔ ¬(u.life.active = true ∧ u.inBlock = true) :=
  Bool.eq_false_iff.trans (not_congr Pipe.midBlock_iff)

/-- `PIPE.RST` runs the operation of PIPE, which returns no word (rule R386). -/
theorem exec_pipeRst (s : State) (os : Bool) (fs : Word) : exec (.pipeRst os fs) s =
    conclude s (s.pipeRst os fs >>= fun t => pure (t, [])) := rfl

theorem State.pipeRst_inBlock {s : State} (os : Bool) (fs : F32) (h : s.pipe.midBlock = true) :
    s.pipeRst os fs = .error .sequence := by
  rw [State.pipeRst, h]; rfl

theorem State.pipeRst_param {s : State} {os : Bool} {fs : F32} (h : s.pipe.midBlock = false)
    (hfs : (F32.lt F32.zero fs && F32.le (bracketRate s.ctx os fs) s.params.fsMax) = false) :
    s.pipeRst os fs = .error .param := by
  rw [State.pipeRst, h, hfs]; rfl

/-- Past its checks `PIPE.RST` succeeds where both rates are acceptable: so does the RST of every unit (rule R422). -/
theorem State.pipeRst_ok {s : State} {os : Bool} {fs : F32} (h : s.pipe.midBlock = false)
    (hfs : rateOk s.ctx.toParams fs = true) (hfsb : rateOk s.ctx.toParams (bracketRate s.ctx os fs) = true) :
    ∃ t, s.pipeRst os fs = .ok t := by
  have hrates : (F32.lt F32.zero fs && F32.le (bracketRate s.ctx os fs) s.params.fsMax) = true :=
    Bool.and_eq_true_iff.2 ⟨(rateOk_iff.1 hfs).1, (rateOk_iff.1 hfsb).2⟩
  rw [State.pipeRst, h, hrates, Gate.rst_eq hfsb, Agc.rst_eq hfsb, Pitch.rst_eq hfsb, Deess.rst_eq hfsb,
    Comp.rst_eq hfsb, Fet.rst_eq hfsb, Sat.rst_eq hfsb, Env.rst_eq hfs, Dly.rst_eq hfs, Rvs.rst_eq hfs, Fdn.rst_eq hfs,
    Wid.rst_eq hfs, Lim.rst_eq hfs, Xn.rst_eq hfs]
  exact ⟨_, rfl⟩

/-- Settles O47: the two checks in order, then every unit at its own rate, with the RST of that unit. -/
theorem pipeResetResetsEveryUnit : Obligations.PipeResetResetsEveryUnit := by
  intro s os fs fsb
  refine ⟨fun hactive hblock => ?_, fun hblock hrate => ?_, fun hblock hfs hfsb => ?_⟩
  · exact conclude_bind_error (State.pipeRst_inBlock os fs (Pipe.midBlock_iff.2 ⟨hactive, hblock⟩))
  · exact conclude_bind_error (State.pipeRst_param (Pipe.midBlock_eq_false_iff.2 hblock)
      (Bool.eq_false_iff.2 (mt Bool.and_eq_true_iff.1 hrate)))
  · obtain ⟨t, ht⟩ := State.pipeRst_ok (Pipe.midBlock_eq_false_iff.2 hblock) hfs hfsb
    have hdone : exec (.pipeRst os fs) s = .next (t.complete []) := conclude_put id ht
    obtain ⟨-, hunits, hpipe⟩ := s.pipeRst_gives os fs t ht
    simp only [State.pipeRst, Except.bind_eq_ok', Except.pure_ok', Except.ok.injEq] at ht
    obtain ⟨-, -, -, -, gate, hgate, agc, hagc, pitch, hpitch, deess, hdeess, comp, hcomp, fet, hfet, sat, hsat, env,
      henv, dly, hdly, rvs, hrvs, fdn, hfdn, wid, hwid, lim, hlim, xn, hxn, rfl⟩ := ht
    exact ⟨_, hdone, rfl, rfl, rfl, hgate, hagc, hpitch, hdeess, rfl, rfl, hcomp, hfet, hsat, henv, hdly, hrvs, hfdn,
      hwid, hlim, hxn, rfl, hunits, hpipe⟩

end Sys2Proof.Machine
end

section
/-! The saved stream (rules R404 to R406): which words each reader takes and refuses, at their places, and what it reads
back of the words that SAVE writes. -/

namespace Sys2Proof.Machine

/-! ### Which words a reader takes (rule R405) -/

/-- The reader takes the first `n` words of a stream that has them, and accepts them exactly where `Q` holds. -/
def Reader.Takes {α : Type} (n : Nat) (Q : List Word → Prop) (r : Reader α) : Prop :=
  ∀ ws, n ≤ ws.length → ((r ws).isSome = true ↔ Q ws) ∧ ∀ a rest, r ws = some (a, rest) → rest = ws.drop n

section
variable {α β : Type} {n m : Nat} {Q S : List Word → Prop}

theorem Reader.Takes.congr {r : Reader α} (h : r.Takes n Q) (hn : n = m) (hQ : ∀ ws, Q ws ↔ S ws) : r.Takes m S := by
  subst hn
  exact fun ws hws => ⟨(h ws hws).1.trans (hQ ws), (h ws hws).2⟩

theorem Reader.Takes.done (a : α) : (Reader.done a).Takes 0 fun _ => True := by
  refine fun ws _ => ⟨⟨fun _ => trivial, fun _ => rfl⟩, ?_⟩
  rintro _ _ ⟨⟩
  rfl

/-- One word that `f` accepts. -/
theorem Reader.Takes.field {f : Word → Option α} {C : Word → Prop} (hf : ∀ w, (f w).isSome = true ↔ C w) :
    (Reader.field f).Takes 1 fun ws => C (ws.getD 0 0) := by
  intro ws hws
  obtain ⟨w, rest, rfl⟩ := List.exists_cons_of_length_pos hws
  refine ⟨?_, ?_⟩
  · rw [Reader.field, Option.isSome_map]
    exact hf w
  · intro a rest' h
    obtain ⟨_, -, ⟨⟩⟩ := Option.map_eq_some_iff.1 h
    rfl

/-- The second reader takes the words behind those of the first. -/
theorem Reader.Takes.andThen {r : Reader α} {f : α → Reader β} (hr : r.Takes n Q) (hf : ∀ a, (f a).Takes m S) :
    (r.andThen f).Takes (n + m) fun ws => Q ws ∧ S (ws.drop n) := by
  intro ws hws
  obtain ⟨hsome, hrest⟩ := hr ws (by omega)
  unfold Reader.andThen
  cases hread : r ws with
  | none => simp [← hsome, hread]
  | some found =>
    obtain ⟨a, rest⟩ := found
    obtain rfl := hrest a rest hread
    obtain ⟨hsome', hrest'⟩ := hf a (ws.drop n) (by rw [List.length_drop]; omega)
    refine ⟨?_, fun b rest hb => ?_⟩
    · rw [hread] at hsome
      exact hsome'.trans (and_iff_right (hsome.1 rfl)).symm
    · rw [hrest' b rest hb, List.drop_drop]

/-- A reader that accepts every word comes before. -/
theorem Reader.Takes.behind {r : Reader α} {f : α → Reader β} (hr : r.Takes n fun _ => True)
    (hf : ∀ a, (f a).Takes m S) : (r.andThen f).Takes (n + m) fun ws => S (ws.drop n) :=
  (hr.andThen hf).congr rfl fun _ => and_iff_right trivial

/-- Any word is accepted (rule R405). -/
theorem Reader.Takes.word : Reader.word.Takes 1 fun _ => True := .field (C := fun _ => True) fun _ => by simp

theorem Reader.Takes.skip {f : Word → Reader β} (hf : ∀ a, (f a).Takes m S) :
    (Reader.word.andThen f).Takes (1 + m) fun ws => S (ws.drop 1) := .behind .word hf

/-- Nothing more is read. -/
theorem Reader.Takes.last {r : Reader α} (hr : r.Takes n Q) (g : α → β) :
    (r.andThen fun a => Reader.done (g a)).Takes n Q :=
  (hr.andThen fun a => .done (g a)).congr rfl fun _ => and_iff_left trivial

/-- `k` groups of `n` words are accepted where each of them is. -/
theorem Reader.Takes.times {r : Reader α} (hr : r.Takes n Q) (k : Nat) :
    (Reader.times r k).Takes (k * n) fun ws => ∀ j, j < k → Q (ws.drop (j * n)) := by
  induction k with
  | zero => exact (Takes.done []).congr (Nat.zero_mul n).symm fun ws => by simp
  | succ k ih =>
    refine (hr.andThen fun a => ih.last (a :: ·)).congr (by ring) fun ws => ?_
    rw [Nat.forall_lt_succ_left]
    simp [Nat.succ_mul, Nat.add_comm]

/-- `n` flag words (rule R405). -/
theorem readBits_takes (n : Nat) :
    (readBits n).Takes n fun ws => ∀ j, j < n → (ws.getD j 0).toNat ≤ 1 :=
  ((Reader.Takes.field fun _ => flagOf_isSome).times n |>.last fun bs => BitVec.ofNat 32 (assemble bs)).congr
    (Nat.mul_one n) fun ws => by simp

end

/-! ### The readers of the units -/

theorem readEnv_takes : readEnv.Takes 2 fun _ => True := .skip fun _ => .skip fun _ => .done _

theorem readBq_takes : readBq.Takes 4 fun ws => (ws.getD 0 0).toNat ≤ 4 :=
  ((Reader.Takes.field fun _ => bqTypeOf_isSome).andThen fun _ => .skip fun _ => .skip fun _ => .skip fun _ =>
    .done _).congr rfl fun _ => and_iff_left trivial

theorem readSvf_takes : readSvf.Takes 4 fun ws => (ws.getD 0 0).toNat ≤ 2 :=
  ((Reader.Takes.field fun _ => svfTypeOf_isSome).andThen fun _ => .skip fun _ => .skip fun _ => .skip fun _ =>
    .done _).congr rfl fun _ => and_iff_left trivial

theorem readGate_takes : readGate.Takes 6 fun _ => True :=
  .skip fun _ => .skip fun _ => .skip fun _ => .skip fun _ => .skip fun _ => .skip fun _ => .done _

theorem readAgc_takes : readAgc.Takes 4 fun _ => True :=
  .skip fun _ => .skip fun _ => .skip fun _ => .skip fun _ => .done _

theorem readDeess_takes : readDeess.Takes 6 fun _ => True :=
  .skip fun _ => .skip fun _ => .skip fun _ => .skip fun _ => .skip fun _ => .skip fun _ => .done _

theorem readComp_takes : readComp.Takes 6 fun _ => True :=
  .skip fun _ => .skip fun _ => .skip fun _ => .skip fun _ => .skip fun _ => .skip fun _ => .done _

theorem readPitch_takes : readPitch.Takes 2 fun _ => True := .skip fun _ => .skip fun _ => .done _

theorem readDly_takes : readDly.Takes 3 fun _ => True := .skip fun _ => .skip fun _ => .skip fun _ => .done _

theorem readRvs_takes : readRvs.Takes 3 fun _ => True := .skip fun _ => .skip fun _ => .skip fun _ => .done _

theorem readFdn_takes : readFdn.Takes 3 fun _ => True := .skip fun _ => .skip fun _ => .skip fun _ => .done _

theorem readLim_takes : readLim.Takes 3 fun _ => True := .skip fun _ => .skip fun _ => .skip fun _ => .done _

theorem readXn_takes : readXn.Takes 7 fun _ => True :=
  .skip fun _ => .skip fun _ => .skip fun _ => .skip fun _ => .skip fun _ => .skip fun _ => .skip fun _ => .done _

/-- The words of a stream behind its first `n`. -/
theorem getD_drop (ws : List Word) (n i : Nat) : (ws.drop n).getD i 0 = ws.getD (n + i) 0 := by
  rw [List.getD_eq_getElem?_getD, List.getElem?_drop, ← List.getD_eq_getElem?_getD]

theorem readFet_takes : readFet.Takes 5 fun ws => (ws.getD 4 0).toNat ≤ 1 :=
  (Reader.Takes.skip fun _ => .skip fun _ => .skip fun _ => .skip fun _ =>
    (Reader.Takes.field fun _ => flagOf_isSome).last _).congr rfl fun _ => by simp only [getD_drop]

theorem readSat_takes : readSat.Takes 2 fun ws => (ws.getD 1 0).toNat ≤ 1 :=
  (Reader.Takes.skip fun _ => (Reader.Takes.field fun _ => satTypeOf_isSome).last _).congr rfl
    fun _ => by simp only [getD_drop]

theorem readWid_takes : readWid.Takes 3 fun ws => (ws.getD 2 0).toNat ≤ 1 :=
  (Reader.Takes.skip fun _ => .skip fun _ => (Reader.Takes.field fun _ => flagOf_isSome).last _).congr rfl
    fun _ => by simp only [getD_drop]

/-- The mud band is none, or a band that exists (rule R405). -/
theorem readMudBand_takes (p : Params) : (readMudBand p).Takes 1 fun ws =>
    ws.getD 0 0 = 0xFFFFFFFF ∨ (ws.getD 0 0).toNat < p.neq :=
  .field (C := fun w => w = 0xFFFFFFFF ∨ w.toNat < p.neq) fun _ => accept_isSome.trans mudBandOk_iff

/-- Two ranges, one behind the other, are one. -/
theorem forall_lt_append {P : Nat → Prop} {n m : Nat} :
    (∀ j, j < n → P j) ∧ (∀ j, j < m → P (n + j)) ↔ ∀ j, j < n + m → P j := by
  refine ⟨fun ⟨hn, hm⟩ j hj => ?_, fun h => ⟨fun j hj => h j (by omega), fun j hj => h _ (by omega)⟩⟩
  by_cases hjn : j < n
  · exact hn j hjn
  · exact Nat.add_sub_of_le (Nat.not_lt.1 hjn) ▸ hm (j - n) (by omega)

/-- The Pipeline Configuration: `14 + 2·NEQ` flag words, then the mud band. -/
theorem readPipe_takes (p : Params) : (readPipe p).Takes (15 + 2 * p.neq) fun ws =>
    (∀ j, j < 14 + 2 * p.neq → (ws.getD j 0).toNat ≤ 1) ∧
    (ws.getD (14 + 2 * p.neq) 0 = 0xFFFFFFFF ∨ (ws.getD (14 + 2 * p.neq) 0).toNat < p.neq) :=
  ((readBits_takes 12).andThen fun _ => (readBits_takes 2).andThen fun _ => (readBits_takes p.neq).andThen fun _ =>
    (readBits_takes p.neq).andThen fun _ => (readMudBand_takes p).last _).congr (by ring) fun ws => by
      have hlen : 14 + 2 * p.neq = 12 + (2 + (p.neq + p.neq)) := by ring
      rw [hlen]
      simp only [getD_drop, List.drop_drop, ← forall_lt_append, and_assoc, Nat.add_assoc, Nat.add_zero]

/-- Which streams are read, word by word (rule R405). -/
theorem readSaved_takes (p : Params) : (readSaved p).Takes (70 + 10 * p.neq) fun ws =>
      (∀ b, b < p.neq → (ws.getD (2 + 4 * b) 0).toNat ≤ 4) ∧
      (∀ b, b < p.neq → (ws.getD (2 + 4 * p.neq + 4 * b) 0).toNat ≤ 2) ∧
      (ws.getD (28 + 8 * p.neq) 0).toNat ≤ 1 ∧
      (ws.getD (30 + 8 * p.neq) 0).toNat ≤ 1 ∧
      (ws.getD (44 + 8 * p.neq) 0).toNat ≤ 1 ∧
      (∀ j, j < 14 + 2 * p.neq → (ws.getD (55 + 8 * p.neq + j) 0).toNat ≤ 1) ∧
      (ws.getD (69 + 10 * p.neq) 0 = 0xFFFFFFFF ∨ (ws.getD (69 + 10 * p.neq) 0).toNat < p.neq) := by
  refine (readEnv_takes.behind fun _ => (readBq_takes.times p.neq).andThen fun _ =>
    (readSvf_takes.times p.neq).andThen fun _ => readGate_takes.behind fun _ => readAgc_takes.behind fun _ =>
    readDeess_takes.behind fun _ => readComp_takes.behind fun _ => readFet_takes.andThen fun _ =>
    readSat_takes.andThen fun _ => readPitch_takes.behind fun _ => readDly_takes.behind fun _ =>
    readRvs_takes.behind fun _ => readFdn_takes.behind fun _ => readWid_takes.andThen fun _ =>
    readLim_takes.behind fun _ => readXn_takes.behind fun _ => (readPipe_takes p).last _).congr (by ring) fun ws => ?_
  simp only [getD_drop, List.drop_drop]
  ring_nf

/-- A stream of NSAVE words has no words left over, so it parses where it is read (rule R405). -/
theorem parseSaved_isSome {p : Params} {ws : List Word} (h : ws.length = 70 + 10 * p.neq) :
    (parseSaved p ws).isSome = true ↔ (readSaved p ws).isSome = true := by
  have hrest := (readSaved_takes p ws h.ge).2
  unfold parseSaved
  cases hread : readSaved p ws with
  | none => rfl
  | some found =>
    obtain ⟨v, rest⟩ := found
    obtain rfl : rest = [] := (hrest v rest hread).trans (List.drop_of_length_le h.le)
    rfl

/-- Settles O56, from what each reader takes, one behind the other. -/
theorem restoreAcceptsWellFormedStreams : Obligations.RestoreAcceptsWellFormedStreams := fun p ws h =>
  (parseSaved_isSome h).trans (readSaved_takes p ws h.ge).1

/-! ### What a reader recovers (rules R404, R405) -/

/-- The reader makes `a` of the words `ws`, whatever comes behind them. -/
def Reader.Recovers {α : Type} (ws : List Word) (a : α) (r : Reader α) : Prop := ∀ rest, r (ws ++ rest) = some (a, rest)

section
variable {α β : Type} {ws vs : List Word} {a : α} {b : β}

theorem Reader.Recovers.done (a : α) : (Reader.done a).Recovers [] a := fun _ => rfl

theorem Reader.Recovers.field {f : Word → Option α} {w : Word} (h : f w = some a) : (Reader.field f).Recovers [w] a :=
  fun _ => by simp [Reader.field, h]

theorem Reader.Recovers.andThen {r : Reader α} {f : α → Reader β} (hr : r.Recovers ws a) (hf : (f a).Recovers vs b) :
    (r.andThen f).Recovers (ws ++ vs) b := fun rest => by
  rw [Reader.andThen, List.append_assoc, hr]
  exact hf rest

/-- A word, recovered as it is. -/
theorem Reader.Recovers.word {f : Word → Reader β} {w : Word} (hf : (f w).Recovers vs b) :
    (Reader.word.andThen f).Recovers (w :: vs) b := .andThen (.field (f := some) rfl) hf

/-- A word that stands for a value of a listed type. -/
theorem Reader.Recovers.coded {g : Word → Option α} {f : α → Reader β} {w : Word} (hg : g w = some a)
    (hf : (f a).Recovers vs b) : ((Reader.field g).andThen f).Recovers (w :: vs) b := .andThen (.field hg) hf

theorem Reader.Recovers.last {r : Reader α} (hr : r.Recovers ws a) (g : α → β) :
    (r.andThen fun a => Reader.done (g a)).Recovers ws (g a) :=
  List.append_nil ws ▸ hr.andThen (.done (g a))

/-- Values written one after another. -/
theorem Reader.Recovers.times {r : Reader α} {f : α → List Word} (hr : ∀ a, r.Recovers (f a) a) {n : Nat} {as : List α}
    (hn : as.length = n) : (Reader.times r n).Recovers (as.flatMap f) as := by
  subst hn
  induction as with
  | nil => exact .done []
  | cons a as ih => exact (hr a).andThen (ih.last (a :: ·))

end

/-- The bits of a number put together again. -/
theorem assemble_testBit (n x : Nat) : assemble ((List.range n).map x.testBit) = x % 2 ^ n := by
  induction n generalizing x with
  | zero => simp [assemble, Nat.mod_one]
  | succ n ih =>
    have hlow : (if x.testBit 0 then 1 else 0) = x % 2 := by
      rw [Nat.testBit_zero]
      rcases Nat.mod_two_eq_zero_or_one x with h | h <;> simp [h]
    have hhigh : (List.range n).map (x.testBit ∘ Nat.succ) = (List.range n).map (x / 2).testBit :=
      List.map_congr_left fun i _ => Nat.testBit_succ x i
    rw [List.range_succ_eq_map, List.map_cons, List.map_map, hhigh, assemble, hlow, ih, Nat.pow_succ', Nat.mod_mul]

/-- The low bits of a word that has no others are recovered (rules R404, R405). -/
theorem readBits_recovers {n : Nat} {w : Word} (h : w.toNat < 2 ^ n) : (readBits n).Recovers (bitWords n w) w := by
  have hwords : bitWords n w = ((List.range n).map w.getLsbD).flatMap fun b => [flagWord b] := by
    rw [bitWords, List.map_eq_flatMap, List.flatMap_map]
  have hword : BitVec.ofNat 32 (assemble ((List.range n).map w.getLsbD)) = w := by
    have hbits : assemble ((List.range n).map w.getLsbD) = w.toNat :=
      (assemble_testBit n w.toNat).trans (Nat.mod_eq_of_lt h)
    rw [hbits, BitVec.ofNat_toNat, BitVec.setWidth_eq]
  have hflags := Reader.Recovers.times (fun b => .field (flagOf_flagWord b))
    (show ((List.range n).map w.getLsbD).length = n by simp)
  have hread := hflags.last fun bs => BitVec.ofNat 32 (assemble bs)
  rwa [hword, ← hwords] at hread

theorem readPipe_recovers {p : Params} {c : PipeP} (hneq : p.neq ≤ 32) (h : pipeCfgOk p c = true) :
    (readPipe p).Recovers (bitWords 12 c.en ++ (bitWords 2 c.sel ++ (bitWords p.neq c.eqKind ++
      (bitWords p.neq c.eqBandEn ++ [c.eqMudBand])))) c := by
  obtain ⟨hen, hsel, hkind, hband, hmud⟩ := pipeCfgOk_iff.1 h
  have mask {w : Word} (hw : bandMaskOk p w = true) : w.toNat < 2 ^ p.neq := by
    rcases Nat.lt_or_eq_of_le hneq with hlt | heq
    · exact bandMaskOk_iff.1 hw hlt
    · rw [heq]; exact w.isLt
  exact (readBits_recovers (enOk_iff.1 hen)).andThen ((readBits_recovers (selOk_iff.1 hsel)).andThen
    ((readBits_recovers (mask hkind)).andThen ((readBits_recovers (mask hband)).andThen
      (.coded (accept_eq_some.2 ⟨hmud, rfl⟩) (.done _)))))

theorem readBq_recovers (P : BqP) : readBq.Recovers (bqSaved P) P :=
  .coded (bqTypeOf_bqTypeWord _) (.word (.word (.word (.done _))))

theorem readSvf_recovers (P : SvfP) : readSvf.Recovers (svfSaved P) P :=
  .coded (svfTypeOf_svfTypeWord _) (.word (.word (.word (.done _))))

theorem readEnv_recovers (P : EnvP) : readEnv.Recovers [P.tAtt, P.tRel] P := .word (.word (.done _))

theorem readGate_recovers (P : GateP) :
    readGate.Recovers [P.threshDb, P.rangeDb, P.attackMs, P.holdMs, P.releaseMs, P.hystDb] P :=
  .word (.word (.word (.word (.word (.word (.done _))))))

theorem readAgc_recovers (P : AgcP) : readAgc.Recovers [P.targetDb, P.rangeDb, P.attackMs, P.releaseMs] P :=
  .word (.word (.word (.word (.done _))))

theorem readDeess_recovers (P : DeessP) :
    readDeess.Recovers [P.freq, P.threshDb, P.ratio, P.attackMs, P.releaseMs, P.maxRedDb] P :=
  .word (.word (.word (.word (.word (.word (.done _))))))

theorem readComp_recovers (P : CompP) :
    readComp.Recovers [P.threshDb, P.ratio, P.kneeDb, P.attackMs, P.releaseMs, P.makeupDb] P :=
  .word (.word (.word (.word (.word (.word (.done _))))))

theorem readFet_recovers (P : FetP) :
    readFet.Recovers [P.inputDb, P.ratio, P.attackMs, P.releaseMs, flagWord P.autoMakeup] P :=
  .word (.word (.word (.word (.coded (flagOf_flagWord _) (.done _)))))

theorem readSat_recovers (P : SatP) : readSat.Recovers [P.drive, satTypeWord P.type] P :=
  .word (.coded (satTypeOf_satTypeWord _) (.done _))

theorem readPitch_recovers (P : PitchP) : readPitch.Recovers [P.amount, P.windowMs] P := .word (.word (.done _))

theorem readDly_recovers (P : DlyP) : readDly.Recovers [P.timeMs, P.feedback, P.mix] P :=
  .word (.word (.word (.done _)))

theorem readRvs_recovers (P : RvsP) : readRvs.Recovers [P.room, P.damp, P.mix] P := .word (.word (.word (.done _)))

theorem readFdn_recovers (P : FdnP) : readFdn.Recovers [P.size, P.damp, P.mix] P := .word (.word (.word (.done _)))

theorem readWid_recovers (P : WidP) : readWid.Recovers [P.width, P.bassFreq, flagWord P.monoBass] P :=
  .word (.word (.coded (flagOf_flagWord _) (.done _)))

theorem readLim_recovers (P : LimP) : readLim.Recovers [P.ceilingDb, P.releaseMs, P.lookaheadMs] P :=
  .word (.word (.word (.done _)))

theorem readXn_recovers (P : XnP) :
    readXn.Recovers [P.targetRmsDb, P.fMudLo, P.fMudHi, P.fCoreLo, P.fCoreHi, P.fScrLo, P.fScrHi] P :=
  .word (.word (.word (.word (.word (.word (.word (.done _)))))))

/-- The stream that SAVE writes is read back, record by record (rules R404, R405). -/
theorem readSaved_recovers {p : Params} {v : Saved} (hneq : p.neq ≤ 32) (h : v.legal p) :
    (readSaved p).Recovers (v.words p) v := by
  obtain ⟨hbq, hsvf, hpipe⟩ := h
  unfold Saved.words readSaved
  simp only [List.append_assoc]
  exact (readEnv_recovers v.env).andThen <| .andThen (.times readBq_recovers hbq) <|
    .andThen (.times readSvf_recovers hsvf) <| (readGate_recovers v.gate).andThen <|
    (readAgc_recovers v.agc).andThen <| (readDeess_recovers v.deess).andThen <| (readComp_recovers v.comp).andThen <|
    (readFet_recovers v.fet).andThen <| (readSat_recovers v.sat).andThen <| (readPitch_recovers v.pitch).andThen <|
    (readDly_recovers v.dly).andThen <| (readRvs_recovers v.rvs).andThen <| (readFdn_recovers v.fdn).andThen <|
    (readWid_recovers v.wid).andThen <| (readLim_recovers v.lim).andThen <| (readXn_recovers v.xn).andThen <|
    (readPipe_recovers hneq hpipe).last _

end Sys2Proof.Machine
end

section
/-! `PIPE.SAVE` and `PIPE.RESTORE` (rules R404 to R406): what each answers, what RESTORE leaves of every unit, and the
round trip. -/

namespace Sys2Proof.Machine

/-! ### PIPE.SAVE (rule R404) -/

/-- `PIPE.SAVE` makes its two checks and returns the stream of the state's record (rule R404). -/
theorem exec_pipeSave (s : State) : exec .pipeSave s = conclude s (require (!s.pipe.midBlock) .sequence >>= fun _ =>
    require s.allConfigured .unconfigured >>= fun _ => pure (s, s.saved.words s.params)) := rfl

theorem exec_pipeSave_inBlock {s : State} (h : s.pipe.midBlock = true) :
    exec .pipeSave s = .next (s.raise .sequence) := by
  rw [exec_pipeSave, h]; rfl

theorem exec_pipeSave_unconfigured {s : State} (h : s.pipe.midBlock = false) (hconf : s.allConfigured = false) :
    exec .pipeSave s = .next (s.raise .unconfigured) := by
  rw [exec_pipeSave, h, hconf]; rfl

theorem exec_pipeSave_eq {s : State} (h : s.pipe.midBlock = false) (hconf : s.allConfigured = true) :
    exec .pipeSave s = .next (s.complete (s.saved.words s.params)) := by
  rw [exec_pipeSave, h, hconf]; rfl

/-- SAVE completes outside a block with every unit configured, and then returns the stream (rule R404). -/
theorem exec_pipeSave_eq_complete {s : State} {ws : List Word} (h : exec .pipeSave s = .next (s.complete ws)) :
    s.pipe.midBlock = false ∧ s.allConfigured = true ∧ ws = s.saved.words s.params := by
  cases hmid : s.pipe.midBlock with
  | true =>
    rw [exec_pipeSave_inBlock hmid] at h
    exact absurd (Host.Outcome.next.inj h).symm (State.complete_ne_raise s s ws .sequence)
  | false =>
    cases hconf : s.allConfigured with
    | false =>
      rw [exec_pipeSave_unconfigured hmid hconf] at h
      exact absurd (Host.Outcome.next.inj h).symm (State.complete_ne_raise s s ws .unconfigured)
    | true =>
      rw [exec_pipeSave_eq hmid hconf] at h
      have htx := congrArg (fun t : State => t.port.tx) (Host.Outcome.next.inj h)
      exact ⟨rfl, rfl, by simpa [eq_comm] using htx⟩

/-- What SAVE asks for, unit by unit (rule R404). -/
theorem State.allConfigured_iff {s : State} : s.allConfigured = true ↔
    s.env.life.configured = true ∧ (∀ u ∈ s.bq, u.life.configured = true) ∧ (∀ u ∈ s.svf, u.life.configured = true) ∧
    s.gate.life.configured = true ∧ s.agc.life.configured = true ∧ s.deess.life.configured = true ∧
    s.comp.life.configured = true ∧ s.fet.life.configured = true ∧ s.sat.life.configured = true ∧
    s.pitch.life.configured = true ∧ s.dly.life.configured = true ∧ s.rvs.life.configured = true ∧
    s.fdn.life.configured = true ∧ s.wid.life.configured = true ∧ s.lim.life.configured = true ∧
    s.xn.life.configured = true ∧ s.pipe.life.configured = true := by
  simp only [State.allConfigured, Bool.and_eq_true, List.all_eq_true, and_assoc]

/-- The stream of a state, instance by instance (rule R404). -/
theorem State.saved_filters (s : State) :
    s.saved.bq.flatMap bqSaved = s.bq.flatMap (fun u => bqSaved u.P) ∧
    s.saved.svf.flatMap svfSaved = s.svf.flatMap (fun u => svfSaved u.P) :=
  ⟨List.flatMap_map .., List.flatMap_map ..⟩

/-- Settles O55: the two checks in order, the stream, and what the second check asks for. -/
theorem saveReturnsTheParametersInOrder : Obligations.SaveReturnsTheParametersInOrder := by
  refine fun s => ⟨rfl, fun hactive hblock => ?_, fun hblock hconf => ?_, fun hblock hconf => ?_,
    State.allConfigured_iff⟩
  · exact exec_pipeSave_inBlock (Pipe.midBlock_iff.2 ⟨hactive, hblock⟩)
  · exact exec_pipeSave_unconfigured (Pipe.midBlock_eq_false_iff.2 hblock) hconf
  · obtain ⟨hbq, hsvf⟩ := s.saved_filters
    have hsave := exec_pipeSave_eq (Pipe.midBlock_eq_false_iff.2 hblock) hconf
    unfold Saved.words at hsave
    rw [hbq, hsvf] at hsave
    exact hsave

/-! ### What RESTORE leaves (rule R405) -/

/-- CFG of the delay stores the parameters, sets `CONFIGURED`, and leaves the rings (rules R36, R292). -/
theorem Dly.cfg_kept (p : Ctx) (u : Dly) (P : DlyP) : (u.cfg p P).P = P ∧ (u.cfg p P).life = u.life.configure ∧
    (u.cfg p P).ch.map (fun c => c.mem) = u.ch.map (fun c => c.mem) := by
  cases ha : u.life.active with
  | false => rw [Dly.cfg_inactive p P ha]; exact ⟨rfl, rfl, rfl⟩
  | true =>
    cases hs : u.snap with
    | false => rw [Dly.cfg_glides p P ha hs]; exact ⟨rfl, rfl, rfl⟩
    | true => rw [Dly.cfg_jumps p P ha hs]; exact ⟨rfl, rfl, by rw [List.map_map]; rfl⟩

/-- The second list, where the pairing keeps its entries. -/
theorem map_zipWith_eq_right {U P : Type} {f : U → P → U} {g : U → P} (hg : ∀ u a, g (f u a) = a) {us : List U}
    {ps : List P} (h : us.length = ps.length) : (List.zipWith f us ps).map g = ps := by
  rw [List.map_zipWith]
  refine List.ext_getElem (by simp [h]) fun i _ _ => ?_
  rw [List.getElem_zipWith, hg]

theorem forall_mem_zipWith {U P : Type} {f : U → P → U} {Q : U → Prop} (hQ : ∀ u a, Q (f u a)) (us : List U)
    (ps : List P) : ∀ v ∈ List.zipWith f us ps, Q v := by
  intro v hv
  obtain ⟨i, hi⟩ := List.mem_iff_getElem?.1 hv
  obtain ⟨u, a, -, -, rfl⟩ := List.getElem?_zipWith_eq_some.1 hi
  exact hQ u a

section
variable {s : State} {v : Saved}

/-- Every P register takes its word (rule R405). -/
theorem State.restored_saved (hc : s.copiesOk) (hv : v.legal s.params) : (s.restored v).saved = v := by
  obtain ⟨hbq, hsvf, -⟩ := hv
  obtain ⟨-, ⟨hbqs, -⟩, ⟨hsvfs, -⟩, -⟩ := State.copiesOk_iff.1 hc
  have hbqP : (List.zipWith (Bq.cfg s.ctx) s.bq v.bq).map Bq.P = v.bq :=
    map_zipWith_eq_right (fun u P => by rw [Bq.cfg_eq]) (hbqs.trans hbq.symm)
  have hsvfP : (List.zipWith (Svf.cfg s.ctx) s.svf v.svf).map Svf.P = v.svf :=
    map_zipWith_eq_right (fun u P => by rw [Svf.cfg_eq]) (hsvfs.trans hsvf.symm)
  obtain ⟨hdlyP, -, -⟩ := Dly.cfg_kept s.ctx s.dly v.dly
  simp only [State.saved, State.restored, hbqP, hsvfP, hdlyP, Env.cfg_eq, Gate.cfg_eq, Agc.cfg_eq, Deess.cfg_eq,
    Comp.cfg_eq, Fet.cfg_eq, Pitch.cfg_eq, Fdn.cfg_eq, Wid.cfg_eq, Lim.cfg_eq, Xn.cfg_eq]
  rfl

/-- Every unit and every instance is configured (rule R405). -/
theorem State.restored_allConfigured (s : State) (v : Saved) : (s.restored v).allConfigured = true := by
  have hbq : ∀ u ∈ List.zipWith (Bq.cfg s.ctx) s.bq v.bq, u.life.configured = true :=
    forall_mem_zipWith (fun u P => by rw [Bq.cfg_eq]) s.bq v.bq
  have hsvf : ∀ u ∈ List.zipWith (Svf.cfg s.ctx) s.svf v.svf, u.life.configured = true :=
    forall_mem_zipWith (fun u P => by rw [Svf.cfg_eq]) s.svf v.svf
  obtain ⟨-, hdly, -⟩ := Dly.cfg_kept s.ctx s.dly v.dly
  simp only [State.allConfigured_iff, State.restored, hdly, Env.cfg_eq, Gate.cfg_eq, Agc.cfg_eq, Deess.cfg_eq,
    Comp.cfg_eq, Fet.cfg_eq, Sat.cfg, Pitch.cfg_eq, Rvs.cfg, Fdn.cfg_eq, Wid.cfg_eq, Lim.cfg_eq, Xn.cfg_eq, Pipe.cfg,
    Life.configure_configured, and_true, true_and]
  exact ⟨hbq, hsvf⟩

/-- No ring memory is touched (rule R405). -/
theorem State.restored_rings (s : State) (v : Saved) : (s.restored v).rings = s.rings := by
  obtain ⟨-, -, hdly⟩ := Dly.cfg_kept s.ctx s.dly v.dly
  simp only [State.rings, State.restored, hdly, Pitch.cfg_eq, Rvs.cfg, Fdn.cfg_eq, Lim.cfg_eq]

end

/-! ### PIPE.RESTORE (rule R405) -/

/-- `PIPE.RESTORE` makes its check, reads the stream and restores the record (rule R405). -/
theorem exec_pipeRestore (s : State) (n : Word) (ws : List Word) : exec (.pipeRestore n ws) s =
    conclude s (require (!s.pipe.midBlock) .sequence >>= fun _ =>
      streamOf s.params n ws >>= fun v => pure (s.restored v, [])) := rfl

theorem streamOf_error {p : Params} {n : Word} {ws : List Word} (h : n.toNat ≠ nsave p ∨ parseSaved p ws = none) :
    streamOf p n ws = .error .restore := by
  unfold streamOf
  split
  · rw [h.resolve_left (not_not.2 ‹_›)]
  · rfl

theorem streamOf_eq {p : Params} {n : Word} {ws : List Word} {v : Saved} (hn : n.toNat = nsave p)
    (h : parseSaved p ws = some v) : streamOf p n ws = .ok v := by
  rw [streamOf, if_pos hn, h]

theorem exec_pipeRestore_eq {s : State} {n : Word} {ws : List Word} {v : Saved} (h : s.pipe.midBlock = false)
    (hv : streamOf s.params n ws = .ok v) : exec (.pipeRestore n ws) s = .next ((s.restored v).complete []) := by
  rw [exec_pipeRestore, h, hv]; rfl

/-- Settles O57: the block, the stream refused, and the stream restored. -/
theorem restoreIsAllOrNothing : Obligations.RestoreIsAllOrNothing := by
  refine fun s n ws => ⟨fun hactive hblock => ?_, fun hblock hbad => ?_, fun v hblock hn hparse hcopies => ?_⟩
  · rw [exec_pipeRestore, Pipe.midBlock_iff.2 ⟨hactive, hblock⟩]; rfl
  · rw [exec_pipeRestore, Pipe.midBlock_eq_false_iff.2 hblock, streamOf_error hbad]; rfl
  · have hstream := streamOf_eq hn hparse
    have hlegal : v.legal s.params := streamOf_gives s.params n ws v hstream
    exact ⟨_, exec_pipeRestore_eq (Pipe.midBlock_eq_false_iff.2 hblock) hstream, State.restored_saved hcopies hlegal,
      s.restored_allConfigured v, s.restored_rings v, rfl, rfl, rfl, rfl, rfl, rfl, rfl, rfl, rfl, rfl, rfl, rfl, rfl,
      rfl, rfl, rfl, rfl, rfl⟩

/-! ### The round trip (rule R406) -/

theorem bitWords_length (n : Nat) (w : Word) : (bitWords n w).length = n := by simp [bitWords]

/-- SAVE writes NSAVE words (rule R404). -/
theorem Saved.words_length {p : Params} {v : Saved} (h : v.legal p) : (v.words p).length = nsave p := by
  obtain ⟨hbq, hsvf, -⟩ := h
  have hbqs : (v.bq.flatMap bqSaved).length = p.neq * 4 := by simp [List.length_flatMap, bqSaved, hbq]
  have hsvfs : (v.svf.flatMap svfSaved).length = p.neq * 4 := by simp [List.length_flatMap, svfSaved, hsvf]
  unfold Saved.words
  simp only [List.length_append, List.length_cons, List.length_nil, hbqs, hsvfs, bitWords_length, nsave]
  ring

/-- What SAVE writes, parses to what it was written from (rules R404, R405). -/
theorem parseSaved_words {p : Params} {v : Saved} (hneq : p.neq ≤ 32) (h : v.legal p) :
    parseSaved p (v.words p) = some v := by
  have hread := readSaved_recovers hneq h []
  rw [List.append_nil] at hread
  rw [parseSaved, hread]

/-- A configured block with its instances holds a record that is legal (rules R31, R387). -/
theorem State.saved_legal {s : State} (hc : s.copiesOk) (hl : s.pipeLegal) (hconf : s.allConfigured = true) :
    s.saved.legal s.params := by
  obtain ⟨-, ⟨hbq, -⟩, ⟨hsvf, -⟩, -⟩ := State.copiesOk_iff.1 hc
  obtain ⟨-, -, -, -, -, -, -, -, -, -, -, -, -, -, -, -, hpipe⟩ := State.allConfigured_iff.1 hconf
  exact ⟨(List.length_map ..).trans hbq, (List.length_map ..).trans hsvf, hl hpipe⟩

theorem Params.neq_le {p : Params} (h : p.wf = true) : p.neq ≤ 32 := by
  simp only [Params.wf, Bool.and_eq_true, decide_eq_true_eq] at h
  omega

/-- Settles O58: the stream that SAVE wrote is of the right length, and parses to the record of the state. -/
theorem saveThenRestoreKeepsTheParameters : Obligations.SaveThenRestoreKeepsTheParameters := by
  intro s ws hwf hcopies hlegal hsave
  obtain ⟨hmid, hconf, hws⟩ := exec_pipeSave_eq_complete hsave
  have hneq := Params.neq_le hwf
  have hrecord := State.saved_legal hcopies hlegal hconf
  have hlength : ws.length = nsave s.params := hws ▸ Saved.words_length hrecord
  have hparse : parseSaved s.params ws = some s.saved := hws ▸ parseSaved_words hneq hrecord
  have hcount : (BitVec.ofNat 32 ws.length).toNat = nsave s.params := by
    rw [hlength, nsave, BitVec.toNat_ofNat]
    omega
  exact ⟨_, exec_pipeRestore_eq hmid (streamOf_eq hcount hparse), State.restored_saved hcopies hrecord⟩

end Sys2Proof.Machine
end

section
/-! What a frame of PIPE leaves unchanged (rules R388 to R392): the traversal of its stages, once for every law that the
PROCs of the selected units obey, then that law. -/

namespace Sys2Proof.Machine

/-! ### The settings of a frame -/

/-- What steers a frame and none of its PROCs changes: the build, the free-value counter, PIPE's own registers, and the
outputs of the supervisor. -/
def State.settings (s : State) : Params × Nat × Pipe × XnOut := (s.params, s.free, s.pipe, s.xn.out)

section
variable {s t : State} (h : t.settings = s.settings)
include h

theorem State.params_of_settings : t.params = s.params := congrArg (fun k => k.1) h

theorem State.pipe_of_settings : t.pipe = s.pipe := congrArg (fun k => k.2.2.1) h

theorem State.out_of_settings : t.xn.out = s.xn.out := congrArg (fun k => k.2.2.2) h

theorem State.ctx_of_settings : t.ctx = s.ctx := by
  have hfree : t.free = s.free := congrArg (fun k => k.2.1) h
  rw [State.ctx, State.ctx, State.params_of_settings h, hfree]

end

/-! ### The traversal of a frame -/

/-- What follows the checks of `PIPE.FRAME` (rule R389). -/
def State.frameBody (s : State) (xs : List F32) : Except Raised (State × List F32) := do
  let (s, xs) ← stageAll (s.pipe.L.enabled .xn) (fun s xs => forChannels State.xnTap s 0 xs) s xs
  let (s, xs) ← forChannels State.channelProc s 0 xs
  let (s, xs) ← stageAll (s.pipe.L.enabled .wid) (fun s xs => widPairs s 0 xs) s xs
  stageAll (s.pipe.L.enabled .lim) (fun s xs => forChannels State.limProc s 0 xs) s xs

/-- `PIPE.FRAME` checks the number of its words, then PIPE's activity and the block, and runs the stages (rule R389). -/
theorem exec_pipeFrame (s : State) (xs : List Word) : exec (.pipeFrame xs) s = conclude s (
    require (decide (xs.length = s.params.nch)) .illegal >>= fun _ => s.pipe.life.needActive >>= fun _ =>
      require s.pipe.inBlock .sequence >>= fun _ => s.frameBody xs) := rfl

/-- A law of computations that begin at a state and end at one with a value: it holds of the PROC of every unit that the
configuration of the state selects, and carries over from two computations to their sequence. -/
structure FrameLaw (V : {β : Type} → State → Except Raised (State × β) → Prop) : Prop where
  stay : ∀ {β : Type} (s : State) (y : β), V s (.ok (s, y))
  seq : ∀ {β γ : Type} {s : State} {x : Except Raised (State × β)} {f : State × β → Except Raised (State × γ)},
    V s x → (∀ t y, t.settings = s.settings → V t (f (t, y))) → V s (x >>= f)
  xnTap : ∀ s c x, s.pipe.L.enabled .xn = true → V s (State.xnTap s c x)
  gateProc : ∀ s c x, s.pipe.L.enabled .gate = true → V s (State.gateProc s c x)
  agcProc : ∀ s c x, s.pipe.L.enabled .agc = true → V s (State.agcProc s c x)
  pitchProc : ∀ s c x, s.pipe.L.enabled .pitch = true → V s (State.pitchProc s c x)
  deessProc : ∀ s c x, s.pipe.L.enabled .deess = true → V s (State.deessProc s c x)
  svfProc : ∀ s c b x, s.pipe.L.enabled .eq = true → b < s.params.neq → s.pipe.L.bandEnabled b = true →
    s.pipe.L.bandIsSvf b = true → V s (State.svfProc s c b x)
  bqProc : ∀ s c b x, s.pipe.L.enabled .eq = true → b < s.params.neq → s.pipe.L.bandEnabled b = true →
    s.pipe.L.bandIsSvf b = false → V s (State.bqProc s c b x)
  fetProc : ∀ s c x, s.pipe.L.enabled .comp = true → s.pipe.L.selectsFet = true → V s (State.fetProc s c x)
  compProc : ∀ s c x, s.pipe.L.enabled .comp = true → s.pipe.L.selectsFet = false → V s (State.compProc s c x)
  satProc : ∀ s c x, s.pipe.L.enabled .sat = true → V s (State.satProc s c x)
  osUp : ∀ s c x, s.pipe.osEn = true → V s (State.osUp s c x)
  osDown : ∀ s c u0 u1 u2 u3, s.pipe.osEn = true → V s (State.osDown s c u0 u1 u2 u3)
  dlyProc : ∀ s c x, s.pipe.L.enabled .dly = true → V s (State.dlyProc s c x)
  fdnProc : ∀ s c x, s.pipe.L.enabled .reverb = true → s.pipe.L.selectsFdn = true → V s (State.fdnProc s c x)
  rvsProc : ∀ s c x, s.pipe.L.enabled .reverb = true → s.pipe.L.selectsFdn = false → V s (State.rvsProc s c x)
  widProc : ∀ s i l r, s.pipe.L.enabled .wid = true → V s (State.widProc s i l r)
  limProc : ∀ s c x, s.pipe.L.enabled .lim = true → V s (State.limProc s c x)

/-- One of two computations, as a setting selects. -/
theorem select_of_cases {α : Type} {P : α → Prop} {sel : Bool} {x y : α} (hx : sel = true → P x)
    (hy : sel = false → P y) : P (if sel then x else y) := by
  cases sel
  · exact hy rfl
  · exact hx rfl

namespace FrameLaw
variable {V : {β : Type} → State → Except Raised (State × β) → Prop} (h : FrameLaw @V)
include h

/-- A stage that is skipped changes nothing (rule R390). -/
theorem stage {on : Bool} {f : State → Nat → F32 → Except Raised (State × F32)} {s : State} {c : Nat} {x : F32}
    (hf : on = true → V s (f s c x)) : V s (Machine.stage on f s c x) := by
  cases on
  · exact h.stay s x
  · exact hf rfl

theorem stageAll {on : Bool} {f : State → List F32 → Except Raised (State × List F32)} {s : State} {xs : List F32}
    (hf : on = true → V s (f s xs)) : V s (Machine.stageAll on f s xs) := by
  cases on
  · exact h.stay s xs
  · exact hf rfl

/-- A pass over the channels (rule R389). -/
theorem channels {f : State → Nat → F32 → Except Raised (State × F32)} {s : State} {c : Nat} {xs : List F32}
    (hf : ∀ t c x, t.settings = s.settings → V t (f t c x)) : V s (forChannels f s c xs) := by
  induction xs generalizing s c with
  | nil => exact h.stay s []
  | cons x xs ih =>
    exact h.seq (hf s c x rfl) fun t y ht => h.seq (ih fun u c x hu => hf u c x (hu.trans ht)) fun u ys _ =>
      h.stay u (y :: ys)

/-- A band of an enabled EQ: the instance of SVF or of BQ, where the band is enabled (rule R392). -/
theorem eqBand {b : Nat} (s : State) (c : Nat) (x : F32) (hon : s.pipe.L.enabled .eq = true) (hb : b < s.params.neq) :
    V s (State.eqBand b s c x) :=
  h.stage fun hen => select_of_cases (h.svfProc s c b x hon hb hen) (h.bqProc s c b x hon hb hen)

theorem eqBands {bs : List Nat} {s : State} {c : Nat} {x : F32} (hon : s.pipe.L.enabled .eq = true)
    (hbs : ∀ b ∈ bs, b < s.params.neq) : V s (Machine.eqBands bs s c x) := by
  induction bs generalizing s x with
  | nil => exact h.stay s x
  | cons b bs ih =>
    refine h.seq (h.eqBand s c x hon (hbs b List.mem_cons_self)) fun t y ht => ih ?_ fun b' hb' => ?_
    · rw [State.pipe_of_settings ht]
      exact hon
    · rw [State.params_of_settings ht]
      exact hbs b' (List.mem_cons_of_mem b hb')

theorem eqProc (s : State) (c : Nat) (x : F32) (hon : s.pipe.L.enabled .eq = true) : V s (s.eqProc c x) :=
  h.eqBands hon fun _ => List.mem_range.1

theorem compressorProc (s : State) (c : Nat) (x : F32) (hon : s.pipe.L.enabled .comp = true) :
    V s (s.compressorProc c x) :=
  select_of_cases (h.fetProc s c x hon) (h.compProc s c x hon)

theorem reverbProc (s : State) (c : Nat) (x : F32) (hon : s.pipe.L.enabled .reverb = true) :
    V s (s.reverbProc c x) :=
  select_of_cases (h.fdnProc s c x hon) (h.rvsProc s c x hon)

/-- Stages 1 to 7, in order (rule R389). -/
theorem bracket (s : State) (c : Nat) (x : F32) : V s (s.bracket c x) :=
  h.seq (h.stage (h.gateProc s c x)) fun s x _ =>
  h.seq (h.stage (h.agcProc s c x)) fun s x _ =>
  h.seq (h.stage (h.pitchProc s c x)) fun s x _ =>
  h.seq (h.stage (h.deessProc s c x)) fun s x _ =>
  h.seq (h.stage (h.eqProc s c x)) fun s x _ =>
  h.seq (h.stage (h.compressorProc s c x)) fun s x _ =>
  h.stage (h.satProc s c x)

theorem oversampled (s : State) (c : Nat) (x : F32) (hon : s.pipe.osEn = true) : V s (s.oversampled c x) :=
  h.seq (h.osUp s c x hon) fun s0 us h0 =>
  h.seq (h.bracket s0 c us.1) fun s1 u0 h1 =>
  h.seq (h.bracket s1 c us.2.1) fun s2 u1 h2 =>
  h.seq (h.bracket s2 c us.2.2.1) fun s3 u2 h3 =>
  h.seq (h.bracket s3 c us.2.2.2) fun s4 u3 h4 =>
  have hkept : s4.settings = s.settings := h4.trans (h3.trans (h2.trans (h1.trans h0)))
  h.osDown s4 c u0 u1 u2 u3 (State.pipe_of_settings hkept ▸ hon)

/-- Bracket or oversampled bracket, then delay, then reverb (rule R389). -/
theorem channelProc (s : State) (c : Nat) (x : F32) : V s (s.channelProc c x) := by
  have behind (s : State) (x : F32) : V s (do
      let (s, x) ← Machine.stage (s.pipe.L.enabled .dly) State.dlyProc s c x
      Machine.stage (s.pipe.L.enabled .reverb) State.reverbProc s c x) :=
    h.seq (h.stage (h.dlyProc s c x)) fun s x _ => h.stage (h.reverbProc s c x)
  exact select_of_cases (fun hon => h.seq (h.oversampled s c x hon) fun s x _ => behind s x)
    fun _ => h.seq (h.bracket s c x) fun s x _ => behind s x

theorem widPairs (s : State) (i : Nat) (xs : List F32) (hon : s.pipe.L.enabled .wid = true) :
    V s (Machine.widPairs s i xs) := by
  induction s, i, xs using Machine.widPairs.induct with
  | case1 s i l r xs ih =>
    exact h.seq (h.widProc s i l r hon) fun t y ht =>
      h.seq (ih t (State.pipe_of_settings ht ▸ hon)) fun u ys _ => h.stay u (y.1 :: y.2 :: ys)
  | case2 s i => exact h.stay s []
  | case3 s i x => exact h.stay s [x]

/-- A pass of a PROC over the channels, behind the enable bit that the PROC asks for. -/
theorem stageChannels {st : Stage} {f : State → Nat → F32 → Except Raised (State × F32)}
    (hf : ∀ s c x, s.pipe.L.enabled st = true → V s (f s c x)) (s : State) (xs : List F32) :
    V s (Machine.stageAll (s.pipe.L.enabled st) (fun s xs => forChannels f s 0 xs) s xs) :=
  h.stageAll fun hon => h.channels fun t c x ht => hf t c x (State.pipe_of_settings ht ▸ hon)

/-- A frame: supervisor tap, channels, widener, limiter (rule R389). -/
theorem frameBody (s : State) (xs : List F32) : V s (s.frameBody xs) :=
  h.seq (h.stageChannels h.xnTap s xs) fun _ _ _ =>
  h.seq (h.channels fun t c x _ => h.channelProc t c x) fun s xs _ =>
  h.seq (h.stageAll (h.widPairs s 0 xs)) fun s xs _ => h.stageChannels h.limProc s xs

end FrameLaw

/-! ### What a frame leaves unchanged (rules R388, R390, R392) -/

/-- A unit whose stage the configuration of `s` disables, or that it does not select, is in `t` as it is in `s`; so are
the settings, and `ENV`, which belongs to no stage. -/
structure State.FrameKeeps (s t : State) : Prop where
  settings : t.settings = s.settings
  env : t.env = s.env
  gate : s.pipe.L.enabled .gate = false → t.gate = s.gate
  agc : s.pipe.L.enabled .agc = false → t.agc = s.agc
  pitch : s.pipe.L.enabled .pitch = false → t.pitch = s.pitch
  deess : s.pipe.L.enabled .deess = false → t.deess = s.deess
  bq : ∀ b, s.pipe.L.enabled .eq = false ∨ s.pipe.L.bandEnabled b = false ∨ s.pipe.L.bandIsSvf b = true →
    t.bq[b]? = s.bq[b]?
  svf : ∀ b, s.pipe.L.enabled .eq = false ∨ s.pipe.L.bandEnabled b = false ∨ s.pipe.L.bandIsSvf b = false →
    t.svf[b]? = s.svf[b]?
  comp : s.pipe.L.enabled .comp = false ∨ s.pipe.L.selectsFet = true → t.comp = s.comp
  fet : s.pipe.L.enabled .comp = false ∨ s.pipe.L.selectsFet = false → t.fet = s.fet
  sat : s.pipe.L.enabled .sat = false → t.sat = s.sat
  os : s.pipe.osEn = false → t.os = s.os
  dly : s.pipe.L.enabled .dly = false → t.dly = s.dly
  rvs : s.pipe.L.enabled .reverb = false ∨ s.pipe.L.selectsFdn = true → t.rvs = s.rvs
  fdn : s.pipe.L.enabled .reverb = false ∨ s.pipe.L.selectsFdn = false → t.fdn = s.fdn
  wid : s.pipe.L.enabled .wid = false → t.wid = s.wid
  lim : s.pipe.L.enabled .lim = false → t.lim = s.lim
  xn : s.pipe.L.enabled .xn = false → t.xn = s.xn

theorem State.FrameKeeps.refl (s : State) : s.FrameKeeps s :=
  ⟨rfl, rfl, fun _ => rfl, fun _ => rfl, fun _ => rfl, fun _ => rfl, fun _ _ => rfl, fun _ _ => rfl, fun _ => rfl,
    fun _ => rfl, fun _ => rfl, fun _ => rfl, fun _ => rfl, fun _ => rfl, fun _ => rfl, fun _ => rfl, fun _ => rfl,
    fun _ => rfl⟩

theorem State.FrameKeeps.trans {s t u : State} (h : s.FrameKeeps t) (k : t.FrameKeeps u) : s.FrameKeeps u := by
  have hpipe := State.pipe_of_settings h.settings
  obtain ⟨ksettings, kenv, kgate, kagc, kpitch, kdeess, kbq, ksvf, kcomp, kfet, ksat, kos, kdly, krvs, kfdn, kwid, klim,
    kxn⟩ := k
  rw [hpipe] at kgate kagc kpitch kdeess kbq ksvf kcomp kfet ksat kos kdly krvs kfdn kwid klim kxn
  exact {
    settings := ksettings.trans h.settings
    env := kenv.trans h.env
    gate := fun off => (kgate off).trans (h.gate off)
    agc := fun off => (kagc off).trans (h.agc off)
    pitch := fun off => (kpitch off).trans (h.pitch off)
    deess := fun off => (kdeess off).trans (h.deess off)
    bq := fun b off => (kbq b off).trans (h.bq b off)
    svf := fun b off => (ksvf b off).trans (h.svf b off)
    comp := fun off => (kcomp off).trans (h.comp off)
    fet := fun off => (kfet off).trans (h.fet off)
    sat := fun off => (ksat off).trans (h.sat off)
    os := fun off => (kos off).trans (h.os off)
    dly := fun off => (kdly off).trans (h.dly off)
    rvs := fun off => (krvs off).trans (h.rvs off)
    fdn := fun off => (kfdn off).trans (h.fdn off)
    wid := fun off => (kwid off).trans (h.wid off)
    lim := fun off => (klim off).trans (h.lim off)
    xn := fun off => (kxn off).trans (h.xn off) }

/-- A setting that is on is not off. -/
theorem absurd_off {on : Bool} {P : Prop} (hon : on = true) (hoff : on = false) : P := by
  rw [hon] at hoff
  cases hoff

/-- Of a unit that is enabled and selected. -/
theorem absurd_unselected {on sel v : Bool} {P : Prop} (hon : on = true) (hsel : sel = v)
    (hoff : on = false ∨ sel = !v) : P := by
  subst hsel
  rcases hoff with hoff | hoff
  · exact absurd_off hon hoff
  · cases sel <;> cases hoff

/-- The instance written is enabled and selected; every other is as it was. -/
theorem getElem?_set_of_off {U : Type} {us : List U} {u : U} {b : Nat} {P : Nat → Prop} (hb : ¬ P b) :
    ∀ i, P i → (us.set b u)[i]? = us[i]? := fun i hi =>
  List.getElem?_set_ne fun hbi => hb (by rwa [hbi])

/-- The PROC of a unit that the configuration selects. -/
theorem State.FrameKeeps.law : FrameLaw fun {_} s x => Leads State.FrameKeeps Prod.fst s x where
  stay s _ := .ok (.refl s)
  seq hx hf := Gives.bind hx fun a ha b hb => ha.trans (hf a.1 a.2 ha.settings b hb)
  gateProc s _ _ hon := .after fun _ => .ok { State.FrameKeeps.refl s with gate := absurd_off hon }
  agcProc s _ _ hon := .after fun _ => .ok { State.FrameKeeps.refl s with agc := absurd_off hon }
  pitchProc s _ _ hon := .after fun _ => .ok { State.FrameKeeps.refl s with pitch := absurd_off hon }
  deessProc s _ _ hon := .after fun _ => .ok { State.FrameKeeps.refl s with deess := absurd_off hon }
  svfProc s _ b _ hon _ hen hsvf := .after fun _ => .ok { State.FrameKeeps.refl s with
    svf := getElem?_set_of_off (by simp [hon, hen, hsvf]) }
  bqProc s _ b _ hon _ hen hbq := .after fun _ => .ok { State.FrameKeeps.refl s with
    bq := getElem?_set_of_off (by simp [hon, hen, hbq]) }
  compProc s _ _ hon hsel := .after fun _ => .ok { State.FrameKeeps.refl s with comp := absurd_unselected hon hsel }
  fetProc s _ _ hon hsel := .after fun _ => .ok { State.FrameKeeps.refl s with fet := absurd_unselected hon hsel }
  satProc s _ _ hon := .after fun _ => .ok { State.FrameKeeps.refl s with sat := absurd_off hon }
  osUp s _ _ hon := .after fun _ => .ok { State.FrameKeeps.refl s with os := absurd_off hon }
  osDown s _ _ _ _ _ hon := .after fun _ => .ok { State.FrameKeeps.refl s with os := absurd_off hon }
  dlyProc s _ _ hon := .after fun _ => .ok { State.FrameKeeps.refl s with dly := absurd_off hon }
  rvsProc s _ _ hon hsel := .after fun _ => .ok { State.FrameKeeps.refl s with rvs := absurd_unselected hon hsel }
  fdnProc s _ _ hon hsel := .after fun _ => .ok { State.FrameKeeps.refl s with fdn := absurd_unselected hon hsel }
  widProc s _ _ _ hon := .after fun _ => .ok { State.FrameKeeps.refl s with wid := absurd_off hon }
  limProc s _ _ hon := .after fun _ => .ok { State.FrameKeeps.refl s with lim := absurd_off hon }
  xnTap s c x hon :=
    have hout : Gives (fun v => v.out = s.xn.out) (s.xn.gather s.ctx c x) := fun _ hv =>
      have ⟨_, _, _, _, h⟩ := Xn.gather_eq_ok hv
      h
    Leads.keep (π := id) (hout.bind fun _ hv => .ok { State.FrameKeeps.refl s with
      settings := congrArg (fun out => (s.params, s.free, s.pipe, out)) hv
      xn := absurd_off hon }) fun _ => rfl

/-- Settles O50, from what every stage of a frame keeps. -/
theorem disabledStageKeepsItsState : Obligations.DisabledStageKeepsItsState := by
  intro s t xs ys h
  rw [exec_pipeFrame] at h
  rcases conclude_eq_next h with ⟨u, results, hu, ht⟩ | ⟨r, -, ht⟩
  · have hkeeps : s.FrameKeeps u :=
      (Gives.after fun _ => .after fun _ => .after fun _ => State.FrameKeeps.law.frameBody s xs) _ hu
    have hpipe : u.pipe = s.pipe := State.pipe_of_settings hkeeps.settings
    have same {α : Type} (field : State → α) : field (t.complete ys) = field (u.complete results) := congrArg field ht
    exact ⟨(same State.env).trans hkeeps.env, (same State.pipe).trans hpipe,
      fun off => (same State.gate).trans (hkeeps.gate off), fun off => (same State.agc).trans (hkeeps.agc off),
      fun off => (same State.pitch).trans (hkeeps.pitch off), fun off => (same State.deess).trans (hkeeps.deess off),
      fun b off => (congrArg (·[b]?) (same State.bq)).trans (hkeeps.bq b off),
      fun b off => (congrArg (·[b]?) (same State.svf)).trans (hkeeps.svf b off),
      fun off => (same State.comp).trans (hkeeps.comp off), fun off => (same State.fet).trans (hkeeps.fet off),
      fun off => (same State.sat).trans (hkeeps.sat off), fun off => (same State.os).trans (hkeeps.os off),
      fun off => (same State.dly).trans (hkeeps.dly off), fun off => (same State.rvs).trans (hkeeps.rvs off),
      fun off => (same State.fdn).trans (hkeeps.fdn off), fun off => (same State.wid).trans (hkeeps.wid off),
      fun off => (same State.lim).trans (hkeeps.lim off), fun off => (same State.xn).trans (hkeeps.xn off)⟩
  · exact absurd ht (State.complete_ne_raise s t ys r)

end Sys2Proof.Machine
end

section
/-! When a frame of PIPE completes (rules R389, R390, R393): in a block every PROC of a selected unit finds its unit
active and configured, and with nothing selected a frame is the identity. -/

namespace Sys2Proof.Machine

/-! ### The units that a frame needs (rule R393) -/

/-- Both flags are set, as a PROC asks for (rule R424). -/
def Life.Runs (l : Life) : Prop := l.active = true ∧ l.configured = true

theorem Life.within.runs {l m : Life} (h : l.within m) (hl : l.Runs) : m.Runs := ⟨h.1 hl.1, h.2 hl.2⟩

/-- Every unit that the latched configuration selects can run, and OS is active. -/
structure State.FrameReady (s : State) : Prop where
  bqs : s.bq.length = s.params.neq
  svfs : s.svf.length = s.params.neq
  os : s.os.life.active = true
  gate : s.pipe.L.enabled .gate = true → s.gate.life.Runs
  agc : s.pipe.L.enabled .agc = true → s.agc.life.Runs
  pitch : s.pipe.L.enabled .pitch = true → s.pitch.life.Runs
  deess : s.pipe.L.enabled .deess = true → s.deess.life.Runs
  svf : ∀ b, s.pipe.L.enabled .eq = true → b < s.params.neq → s.pipe.L.bandEnabled b = true →
    s.pipe.L.bandIsSvf b = true → (s.svfAt b).life.Runs
  bq : ∀ b, s.pipe.L.enabled .eq = true → b < s.params.neq → s.pipe.L.bandEnabled b = true →
    s.pipe.L.bandIsSvf b = false → (s.bqAt b).life.Runs
  fet : s.pipe.L.enabled .comp = true → s.pipe.L.selectsFet = true → s.fet.life.Runs
  comp : s.pipe.L.enabled .comp = true → s.pipe.L.selectsFet = false → s.comp.life.Runs
  sat : s.pipe.L.enabled .sat = true → s.sat.life.Runs
  dly : s.pipe.L.enabled .dly = true → s.dly.life.Runs
  fdn : s.pipe.L.enabled .reverb = true → s.pipe.L.selectsFdn = true → s.fdn.life.Runs
  rvs : s.pipe.L.enabled .reverb = true → s.pipe.L.selectsFdn = false → s.rvs.life.Runs
  wid : s.pipe.L.enabled .wid = true → s.wid.life.Runs
  lim : s.pipe.L.enabled .lim = true → s.lim.life.Runs
  xn : s.pipe.L.enabled .xn = true → s.xn.life.Runs

/-- A block that passed the check of `PIPE.BEGIN` is ready for its frames (rule R393). -/
theorem State.frameReady_of_selectedReady {s : State} (hc : s.copiesOk) (ha : s.unitsActive)
    (h : s.selectedReady s.pipe.L = true) : s.FrameReady := by
  obtain ⟨-, -, -, -, -, hselected⟩ := pipeBeginLatchesTheConfiguration s
  obtain ⟨hgate, hagc, hpitch, hdeess, heq, hcomp, hfet, hsat, hdly, hrvs, hfdn, hwid, hlim, hxn⟩ := (hselected _).1 h
  obtain ⟨-, abq, asvf, agate, aagc, adeess, acomp, afet, asat, apitch, adly, arvs, afdn, awid, aos, alim, axn⟩ := ha
  obtain ⟨-, ⟨hbqs, -⟩, ⟨hsvfs, -⟩, -⟩ := State.copiesOk_iff.1 hc
  have hsvfAt {b : Nat} (hb : b < s.params.neq) : (s.svfAt b).life.active = true := by
    rw [State.svfAt_of_lt (hsvfs ▸ hb)]
    exact asvf _ (List.getElem_mem _)
  have hbqAt {b : Nat} (hb : b < s.params.neq) : (s.bqAt b).life.active = true := by
    rw [State.bqAt_of_lt (hbqs ▸ hb)]
    exact abq _ (List.getElem_mem _)
  exact {
    bqs := hbqs, svfs := hsvfs, os := aos
    gate := fun hon => ⟨agate, hgate hon⟩
    agc := fun hon => ⟨aagc, hagc hon⟩
    pitch := fun hon => ⟨apitch, hpitch hon⟩
    deess := fun hon => ⟨adeess, hdeess hon⟩
    svf := fun b hon hb hen hkind => ⟨hsvfAt hb, (heq hon b hb hen).1 hkind⟩
    bq := fun b hon hb hen hkind => ⟨hbqAt hb, (heq hon b hb hen).2 hkind⟩
    fet := fun hon hsel => ⟨afet, hfet hon hsel⟩
    comp := fun hon hsel => ⟨acomp, hcomp hon hsel⟩
    sat := fun hon => ⟨asat, hsat hon⟩
    dly := fun hon => ⟨adly, hdly hon⟩
    fdn := fun hon hsel => ⟨afdn, hfdn hon hsel⟩
    rvs := fun hon hsel => ⟨arvs, hrvs hon hsel⟩
    wid := fun hon => ⟨awid, hwid hon⟩
    lim := fun hon => ⟨alim, hlim hon⟩
    xn := fun hon => ⟨axn, hxn hon⟩ }

/-- An instance that could run still can, where all instances advance. -/
theorem AdvancesAll.runs {U : Type} {life : U → Life} {fits : U → Prop} {n b : Nat} {us vs : List U} {d : U}
    (h : AdvancesAll life fits n us vs) (hb : b < vs.length) (hus : (life (us.getD b d)).Runs) :
    (life (vs.getD b d)).Runs := by
  obtain ⟨u, hu, huv⟩ := h.source b vs[b] (List.getElem?_eq_getElem hb)
  rw [List.getD_eq_getElem?_getD, hu] at hus
  rw [List.getD_eq_getElem _ _ hb]
  exact huv.within.runs hus

/-- What advances, with the settings kept, stays ready. -/
theorem State.FrameReady.advance {s t : State} (hs : s.FrameReady) (h : s.Advances t)
    (hset : t.settings = s.settings) : t.FrameReady := by
  have hbqs : t.bq.length = t.params.neq := h.params ▸ h.bq.length hs.bqs
  have hsvfs : t.svf.length = t.params.neq := h.params ▸ h.svf.length hs.svfs
  have hbq {b : Nat} (hb : b < s.params.neq) (hr : (s.bqAt b).life.Runs) : (t.bqAt b).life.Runs := by
    rw [State.bqAt, h.params]
    exact h.bq.runs (by rwa [hbqs, h.params]) hr
  have hsvf {b : Nat} (hb : b < s.params.neq) (hr : (s.svfAt b).life.Runs) : (t.svfAt b).life.Runs := by
    rw [State.svfAt, h.params]
    exact h.svf.runs (by rwa [hsvfs, h.params]) hr
  have hpipe := State.pipe_of_settings hset
  constructor
  case bqs => exact hbqs
  case svfs => exact hsvfs
  case os => exact h.os.within.1 hs.os
  all_goals rw [hpipe]
  case gate => exact fun hon => h.gate.within.runs (hs.gate hon)
  case agc => exact fun hon => h.agc.within.runs (hs.agc hon)
  case pitch => exact fun hon => h.pitch.within.runs (hs.pitch hon)
  case deess => exact fun hon => h.deess.within.runs (hs.deess hon)
  case svf =>
    rw [h.params]
    exact fun b hon hb hen hkind => hsvf hb (hs.svf b hon hb hen hkind)
  case bq =>
    rw [h.params]
    exact fun b hon hb hen hkind => hbq hb (hs.bq b hon hb hen hkind)
  case fet => exact fun hon hsel => h.fet.within.runs (hs.fet hon hsel)
  case comp => exact fun hon hsel => h.comp.within.runs (hs.comp hon hsel)
  case sat => exact fun hon => h.sat.within.runs (hs.sat hon)
  case dly => exact fun hon => h.dly.within.runs (hs.dly hon)
  case fdn => exact fun hon hsel => h.fdn.within.runs (hs.fdn hon hsel)
  case rvs => exact fun hon hsel => h.rvs.within.runs (hs.rvs hon hsel)
  case wid => exact fun hon => h.wid.within.runs (hs.wid hon)
  case lim => exact fun hon => h.lim.within.runs (hs.lim hon)
  case xn => exact fun hon => h.xn.within.runs (hs.xn hon)

/-! ### A frame completes (rule R389) -/

/-- From a state that is ready the computation succeeds, and leaves a state that is ready, with the same settings. -/
def Completes {β : Type} (s : State) (x : Except Raised (State × β)) : Prop :=
  s.FrameReady → ∃ a, x = .ok a ∧ a.1.FrameReady ∧ a.1.settings = s.settings

/-- An operation that succeeds and moves the state as every operation of a unit does. -/
theorem Completes.of_ok {β : Type} {s : State} {x : Except Raised (State × β)}
    (hadv : Leads State.Advances Prod.fst s x) (hkeep : Leads State.FrameKeeps Prod.fst s x)
    (hx : s.FrameReady → ∃ a, x = .ok a) : Completes s x := by
  intro hs
  obtain ⟨a, ha⟩ := hx hs
  have hset := (hkeep a ha).settings
  exact ⟨a, ha, hs.advance (hadv a ha) hset, hset⟩

/-- What follows a computation that succeeds and cannot fail itself. -/
theorem exists_ok_bind {α β : Type} {x : Except Raised α} {f : α → Except Raised β} (hx : ∃ a, x = .ok a)
    (hf : ∀ a, ∃ b, f a = .ok b) : ∃ b, (x >>= f) = .ok b := by
  obtain ⟨a, ha⟩ := hx
  obtain ⟨b, hb⟩ := hf a
  exact ⟨b, Except.bind_eq_ok'.2 ⟨a, ha, hb⟩⟩

/-- The PROC of a unit that can run, put into the state. -/
theorem exists_ok_proc {U β : Type} {l : Life} {x : Except Raised (U × F32)} {f : U × F32 → Except Raised β}
    (hl : l.Runs) (hx : l.active = true → l.configured = true → ∃ v y, x = .ok (v, y))
    (hf : ∀ a, ∃ b, f a = .ok b) : ∃ b, (x >>= f) = .ok b := by
  obtain ⟨v, y, hv⟩ := hx hl.1 hl.2
  exact exists_ok_bind ⟨_, hv⟩ hf

theorem State.widProc_ok {s : State} (i : Nat) (l r : F32) (h : s.wid.life.Runs) : ∃ a, s.widProc i l r = .ok a := by
  obtain ⟨v, l', r', hv⟩ := Wid.proc_ok s.ctx i l r h.1 h.2
  exact exists_ok_bind ⟨_, hv⟩ fun _ => ⟨_, rfl⟩

theorem State.xnTap_ok {s : State} (c : Nat) (x : F32) (h : s.xn.life.Runs) : ∃ a, s.xnTap c x = .ok a :=
  exists_ok_bind ⟨_, State.xnAcc_eq c x (Life.needReady_ok h.1 h.2)⟩ fun _ => ⟨_, rfl⟩

/-- The PROC of a unit that the configuration selects completes. -/
theorem Completes.law : FrameLaw @Completes := by
  have adv := State.Advances.respected
  have keep := State.FrameKeeps.law
  constructor
  case stay => exact fun s y hs => ⟨_, rfl, hs, rfl⟩
  case seq =>
    intro β γ s x f hx hf hs
    obtain ⟨a, ha, hready, hset⟩ := hx hs
    obtain ⟨b, hb, hready', hset'⟩ := hf a.1 a.2 hset hready
    exact ⟨b, Except.bind_eq_ok'.2 ⟨a, ha, hb⟩, hready', hset'.trans hset⟩
  case xnTap =>
    exact fun s c x hon => .of_ok (adv.xnTap s c x) (keep.xnTap s c x hon) fun hs =>
      State.xnTap_ok c x (hs.xn hon)
  case gateProc =>
    exact fun s c x hon => .of_ok (adv.gateProc s c x) (keep.gateProc s c x hon) fun hs =>
      exists_ok_proc (hs.gate hon) (Gate.proc_ok s.ctx c x) fun _ => ⟨_, rfl⟩
  case agcProc =>
    exact fun s c x hon => .of_ok (adv.agcProc s c x) (keep.agcProc s c x hon) fun hs =>
      exists_ok_proc (hs.agc hon) (Agc.proc_ok s.ctx c x) fun _ => ⟨_, rfl⟩
  case pitchProc =>
    exact fun s c x hon => .of_ok (adv.pitchProc s c x) (keep.pitchProc s c x hon) fun hs =>
      exists_ok_proc (hs.pitch hon) (Pitch.proc_ok s.ctx c x) fun _ => ⟨_, rfl⟩
  case deessProc =>
    exact fun s c x hon => .of_ok (adv.deessProc s c x) (keep.deessProc s c x hon) fun hs =>
      exists_ok_proc (hs.deess hon) (Deess.proc_ok s.ctx c x) fun _ => ⟨_, rfl⟩
  case svfProc =>
    exact fun s c b x hon hb hen hkind => .of_ok (adv.svfProc s c b x) (keep.svfProc s c b x hon hb hen hkind) fun hs =>
      exists_ok_proc (hs.svf b hon hb hen hkind) (Svf.proc_ok s.ctx c x) fun _ => ⟨_, rfl⟩
  case bqProc =>
    exact fun s c b x hon hb hen hkind => .of_ok (adv.bqProc s c b x) (keep.bqProc s c b x hon hb hen hkind) fun hs =>
      exists_ok_proc (hs.bq b hon hb hen hkind) (Bq.proc_ok s.ctx c x) fun _ => ⟨_, rfl⟩
  case fetProc =>
    exact fun s c x hon hsel => .of_ok (adv.fetProc s c x) (keep.fetProc s c x hon hsel) fun hs =>
      exists_ok_proc (hs.fet hon hsel) (Fet.proc_ok s.ctx c x) fun _ => ⟨_, rfl⟩
  case compProc =>
    exact fun s c x hon hsel => .of_ok (adv.compProc s c x) (keep.compProc s c x hon hsel) fun hs =>
      exists_ok_proc (hs.comp hon hsel) (Comp.proc_ok s.ctx c x) fun _ => ⟨_, rfl⟩
  case satProc =>
    exact fun s c x hon => .of_ok (adv.satProc s c x) (keep.satProc s c x hon) fun hs =>
      exists_ok_proc (hs.sat hon) (Sat.proc_ok s.ctx c x) fun _ => ⟨_, rfl⟩
  case osUp =>
    exact fun s c x hon => .of_ok (adv.osUp s c x) (keep.osUp s c x hon) fun hs =>
      ⟨_, State.osUp_eq c x hs.os⟩
  case osDown =>
    exact fun s c u0 u1 u2 u3 hon => .of_ok (adv.osDown s c u0 u1 u2 u3) (keep.osDown s c u0 u1 u2 u3 hon) fun hs =>
      ⟨_, State.osDown_eq c u0 u1 u2 u3 hs.os⟩
  case dlyProc =>
    exact fun s c x hon => .of_ok (adv.dlyProc s c x) (keep.dlyProc s c x hon) fun hs =>
      exists_ok_proc (hs.dly hon) (Dly.proc_ok s.ctx c x) fun _ => ⟨_, rfl⟩
  case fdnProc =>
    exact fun s c x hon hsel => .of_ok (adv.fdnProc s c x) (keep.fdnProc s c x hon hsel) fun hs =>
      exists_ok_proc (hs.fdn hon hsel) (Fdn.proc_ok s.ctx c x) fun _ => ⟨_, rfl⟩
  case rvsProc =>
    exact fun s c x hon hsel => .of_ok (adv.rvsProc s c x) (keep.rvsProc s c x hon hsel) fun hs =>
      exists_ok_proc (hs.rvs hon hsel) (Rvs.proc_ok s.ctx c x) fun _ => ⟨_, rfl⟩
  case widProc =>
    exact fun s i l r hon => .of_ok (adv.widProc s i l r) (keep.widProc s i l r hon) fun hs =>
      State.widProc_ok i l r (hs.wid hon)
  case limProc =>
    exact fun s c x hon => .of_ok (adv.limProc s c x) (keep.limProc s c x hon) fun hs =>
      exists_ok_proc (hs.lim hon) (Lim.proc_ok s.ctx c x) fun _ => ⟨_, rfl⟩

/-! ### As many words as channels (rule R389) -/

theorem forChannels_length (f : State → Nat → F32 → Except Raised (State × F32)) (s : State) (c : Nat)
    (xs : List F32) : Gives (fun r => r.2.length = xs.length) (forChannels f s c xs) := fun _ h =>
  (forChannels_keeps (P := fun _ => True) (fun _ _ _ _ _ _ _ => trivial) trivial h).2

theorem widPairs_length (s : State) (i : Nat) (xs : List F32) :
    Gives (fun r => r.2.length = xs.length) (widPairs s i xs) := by
  induction s, i, xs using widPairs.induct with
  | case1 s i l r xs ih => exact .after fun a => (ih a.1).bind fun _ h => .ok (by simp [h])
  | case2 s i => exact .ok rfl
  | case3 s i x => exact .ok rfl

theorem stageAll_length {on : Bool} {f : State → List F32 → Except Raised (State × List F32)} {s : State}
    {xs : List F32} (hf : Gives (fun r => r.2.length = xs.length) (f s xs)) :
    Gives (fun r => r.2.length = xs.length) (stageAll on f s xs) := .ite hf (.ok rfl)

/-- A frame returns a word for every word (rule R389). -/
theorem State.frameBody_length (s : State) (xs : List F32) :
    Gives (fun r => r.2.length = xs.length) (s.frameBody xs) :=
  (stageAll_length (forChannels_length _ s 0 xs)).bind fun a ha =>
  (forChannels_length _ a.1 0 a.2).bind fun b hb =>
  (stageAll_length (widPairs_length b.1 0 b.2)).bind fun c hc => by
    rw [← ha, ← hb, ← hc]
    exact stageAll_length (forChannels_length _ c.1 0 c.2)

/-! ### A frame with nothing selected (rule R390) -/

theorem PipeP.enabled_eq_false {c : PipeP} (h : c.en = 0) (st : Stage) : c.enabled st = false := by
  rw [PipeP.enabled, h]
  exact BitVec.getLsbD_zero

/-- A pass over the channels that changes no word and no state. -/
theorem forChannels_eq_self {f : State → Nat → F32 → Except Raised (State × F32)} {s : State}
    (hf : ∀ c x, f s c x = .ok (s, x)) (c : Nat) (xs : List F32) : forChannels f s c xs = .ok (s, xs) := by
  induction xs generalizing c with
  | nil => rfl
  | cons x xs ih => simp [forChannels, hf, ih]

/-- With every module disabled and no oversampling a frame is the identity (rule R390). -/
theorem State.frameBody_off {s : State} (xs : List F32) (hen : s.pipe.L.en = 0) (hos : s.pipe.osEn = false) :
    s.frameBody xs = .ok (s, xs) := by
  have off := PipeP.enabled_eq_false hen
  have hchannel (c : Nat) (x : F32) : s.channelProc c x = .ok (s, x) := by
    simp [State.channelProc, State.bracket, off, hos]
  simp [State.frameBody, off, forChannels_eq_self hchannel]

/-! ### PIPE.FRAME -/

section
variable {s : State} {xs : List Word} (hlen : xs.length = s.params.nch)
include hlen

theorem exec_pipeFrame_inactive (h : s.pipe.life.active = false) :
    exec (.pipeFrame xs) s = .next (s.raise .inactive) := by
  rw [exec_pipeFrame, decide_eq_true hlen, Life.needActive, h]; rfl

theorem exec_pipeFrame_outside (h : s.pipe.life.active = true) (hb : s.pipe.inBlock = false) :
    exec (.pipeFrame xs) s = .next (s.raise .sequence) := by
  rw [exec_pipeFrame, decide_eq_true hlen, Life.needActive, h, hb]; rfl

/-- Inside a block a frame is the run of its stages (rule R389). -/
theorem exec_pipeFrame_inside (h : s.pipe.life.active = true) (hb : s.pipe.inBlock = true) :
    exec (.pipeFrame xs) s = conclude s (s.frameBody xs) := by
  rw [exec_pipeFrame, decide_eq_true hlen, Life.needActive, h, hb]; rfl

end

/-- Settles O49: the checks in order, the block that is ready, and the frame with nothing selected. -/
theorem pipeFrameCompletesInsideABlock : Obligations.PipeFrameCompletesInsideABlock := by
  refine fun s xs hlen => ⟨exec_pipeFrame_inactive hlen, exec_pipeFrame_outside hlen,
    fun hactive hblock hcopies hunits hselected => ?_, fun hactive hblock hen hos => ?_⟩
  · have hready := State.frameReady_of_selectedReady hcopies hunits hselected
    obtain ⟨r, hr, -, hset⟩ := Completes.law.frameBody s xs hready
    refine ⟨r.1, r.2, ?_, s.frameBody_length xs r hr, State.pipe_of_settings hset⟩
    rw [exec_pipeFrame_inside hlen hactive hblock, hr]; rfl
  · rw [exec_pipeFrame_inside hlen hactive hblock, State.frameBody_off xs hen hos]; rfl

end Sys2Proof.Machine
end

section
/-! A frame of PIPE as the pseudocode of rule R389: the same stages under a configuration that is fixed when the frame
begins, over the words `v[0..NCH-1]`, and the PROCs as the units' own commands run them (rules R388, R389, R392). -/

namespace Sys2Proof.Machine

/-! ### The pseudocode (rule R389) -/

namespace Frame

/-- `if on` a PROC, then that, on the word of the stage before. -/
def run (on : Bool) (f : State → Nat → F32 → Except Raised (State × F32)) (c : Nat) (r : State × F32) :
    Except Raised (State × F32) := if on then f r.1 c r.2 else .ok r

/-- Band `b` of the EQ (rule R392). -/
def band (L : PipeP) (b : Nat) (s : State) (c : Nat) (x : F32) : Except Raised (State × F32) :=
  if L.bandIsSvf b then s.svfProc c b x else s.bqProc c b x

/-- The enabled ones of the bands `bs`, one after the other (rule R392). -/
def bands (L : PipeP) (bs : List Nat) (s : State) (c : Nat) (x : F32) : Except Raised (State × F32) :=
  bs.foldlM (fun r b => run (L.bandEnabled b) (band L b) c r) (s, x)

/-- The EQ: all bands (rule R392). -/
def eq (L : PipeP) (s : State) (c : Nat) (x : F32) : Except Raised (State × F32) :=
  bands L (List.range s.params.neq) s c x

def compressor (L : PipeP) : State → Nat → F32 → Except Raised (State × F32) :=
  if L.selectsFet then State.fetProc else State.compProc

def reverb (L : PipeP) : State → Nat → F32 → Except Raised (State × F32) :=
  if L.selectsFdn then State.fdnProc else State.rvsProc

/-- `bracket(c, s)` with the given EQ (rule R389). -/
def bracket (L : PipeP) (eq : State → Nat → F32 → Except Raised (State × F32)) (c : Nat) (r : State × F32) :
    Except Raised (State × F32) := do
  let r ← run (L.enabled .gate) State.gateProc c r
  let r ← run (L.enabled .agc) State.agcProc c r
  let r ← run (L.enabled .pitch) State.pitchProc c r
  let r ← run (L.enabled .deess) State.deessProc c r
  let r ← run (L.enabled .eq) eq c r
  let r ← run (L.enabled .comp) (compressor L) c r
  run (L.enabled .sat) State.satProc c r

/-- The bracket four times between `OS.UP` and `OS.DOWN` (rule R389). -/
def oversampled (L : PipeP) (eq : State → Nat → F32 → Except Raised (State × F32)) (c : Nat) (r : State × F32) :
    Except Raised (State × F32) := do
  let (t, u0, u1, u2, u3) ← r.1.osUp c r.2
  let r0 ← bracket L eq c (t, u0)
  let r1 ← bracket L eq c (r0.1, u1)
  let r2 ← bracket L eq c (r1.1, u2)
  let r3 ← bracket L eq c (r2.1, u3)
  r3.1.osDown c r0.2 r1.2 r2.2 r3.2

/-- What follows the bracket: delay, then reverb (rule R389). -/
def behind (L : PipeP) (c : Nat) (r : State × F32) : Except Raised (State × F32) := do
  let r ← run (L.enabled .dly) State.dlyProc c r
  run (L.enabled .reverb) (reverb L) c r

/-- The part of a frame that runs channel by channel (rule R389). -/
def channel (os : Bool) (L : PipeP) (eq : State → Nat → F32 → Except Raised (State × F32)) (c : Nat)
    (r : State × F32) : Except Raised (State × F32) :=
  if os then oversampled L eq c r >>= behind L c else bracket L eq c r >>= behind L c

/-- The supervisor's tap and the pre-gain, of the outputs that the frame begins with (rules R388, R389). -/
def tap (s : State) (c : Nat) (r : State × F32) : Except Raised (State × F32) := do
  let t ← r.1.xnAcc c r.2
  pure (t, s.ctx.mul r.2 s.xn.out.preGain)

/-- One channel after another of the words `v[0..NCH-1]` (rule R389). -/
def step (f : Nat → State × F32 → Except Raised (State × F32)) (r : State × List F32) (c : Nat) :
    Except Raised (State × List F32) := do
  let q ← f c (r.1, r.2.getD c 0)
  pure (q.1, r.2.set c q.2)

/-- One pair after another of the words `v[0..NCH-1]` (rule R389). -/
def pairStep (r : State × List F32) (i : Nat) : Except Raised (State × List F32) := do
  let (t, l, q) ← r.1.widProc i (r.2.getD (2 * i) 0) (r.2.getD (2 * i + 1) 0)
  pure (t, (r.2.set (2 * i) l).set (2 * i + 1) q)

end Frame

/-! ### The model's stages are those of the pseudocode -/

/-- Sequencing two runs that agree: the rest may rely on the settings that the first part keeps. -/
theorem seq_congr {β γ : Type} {s t : State} {x x' : Except Raised (State × β)}
    {f g : State × β → Except Raised γ} (hx : x = x')
    (hkeep : Leads State.FrameKeeps Prod.fst t x) (ht : t.settings = s.settings)
    (hfg : ∀ u y, u.settings = s.settings → f (u, y) = g (u, y)) : (x >>= f) = x' >>= g := by
  subst hx
  cases hx : x with
  | error e => rfl
  | ok a => exact hfg a.1 a.2 ((hkeep a hx).settings.trans ht)

section
variable {s t : State} (ht : t.settings = s.settings)
include ht

/-- A stage of the model is one of the pseudocode, if the PROC is. -/
theorem stage_eq_run {f f' : State → Nat → F32 → Except Raised (State × F32)} {st : Stage} {c : Nat} {x : F32}
    (hf : t.pipe.L.enabled st = true → f t c x = f' t c x) :
    stage (t.pipe.L.enabled st) f t c x = Frame.run (s.pipe.L.enabled st) f' c (t, x) := by
  rw [← State.pipe_of_settings ht]
  cases hon : t.pipe.L.enabled st with
  | false => rfl
  | true => exact hf hon

theorem eqBand_eq_run (b c : Nat) (x : F32) :
    State.eqBand b t c x = Frame.run (s.pipe.L.bandEnabled b) (Frame.band s.pipe.L b) c (t, x) := by
  rw [← State.pipe_of_settings ht]; rfl

theorem compressorProc_eq (c : Nat) (x : F32) : t.compressorProc c x = Frame.compressor s.pipe.L t c x := by
  rw [← State.pipe_of_settings ht, State.compressorProc, Frame.compressor]
  cases t.pipe.L.selectsFet <;> rfl

theorem reverbProc_eq (c : Nat) (x : F32) : t.reverbProc c x = Frame.reverb s.pipe.L t c x := by
  rw [← State.pipe_of_settings ht, State.reverbProc, Frame.reverb]
  cases t.pipe.L.selectsFdn <;> rfl

end

section
variable {s t : State} (c : Nat) (x : F32) (ht : t.settings = s.settings)
include ht

/-- The bands one after the other (rule R392). -/
theorem eqBands_eq {bs : List Nat} (hon : t.pipe.L.enabled .eq = true) (hbs : ∀ b ∈ bs, b < t.params.neq) :
    eqBands bs t c x = Frame.bands s.pipe.L bs t c x := by
  induction bs generalizing t x with
  | nil => rfl
  | cons b bs ih =>
    have hkeep : Leads State.FrameKeeps Prod.fst t (State.eqBand b t c x) :=
      State.FrameKeeps.law.eqBand t c x hon (hbs b List.mem_cons_self)
    rw [eqBands, Frame.bands, List.foldlM_cons]
    refine seq_congr (eqBand_eq_run ht b c x) hkeep ht fun u y hu => ih y hu ?_ ?_
    · rw [State.pipe_of_settings (hu.trans ht.symm)]
      exact hon
    · rw [State.params_of_settings (hu.trans ht.symm)]
      exact fun b' hb' => hbs b' (List.mem_cons_of_mem b hb')

/-- The EQ is the chain of the enabled bands (rule R392). -/
theorem eqProc_eq (hon : t.pipe.L.enabled .eq = true) : t.eqProc c x = Frame.eq s.pipe.L t c x :=
  eqBands_eq c x ht hon fun _ => List.mem_range.1

/-- Delay, then reverb (rule R389). -/
theorem behind_eq : (do
    let (t, x) ← stage (t.pipe.L.enabled .dly) State.dlyProc t c x
    stage (t.pipe.L.enabled .reverb) State.reverbProc t c x) = Frame.behind s.pipe.L c (t, x) := by
  have keep := State.FrameKeeps.law
  exact seq_congr (stage_eq_run ht fun _ => rfl) (keep.stage (keep.dlyProc t c x)) ht fun t x ht =>
    stage_eq_run ht fun _ => reverbProc_eq ht c x

/-- The supervisor's tap, whose outputs no tap changes (rules R374, R389). -/
theorem xnTap_eq (hon : t.pipe.L.enabled .xn = true) : t.xnTap c x = Frame.tap s c (t, x) := by
  cases hacc : t.xnAcc c x with
  | error e => simp only [State.xnTap, Frame.tap, hacc, Except.bind_error']
  | ok u =>
    have htap : t.xnTap c x = .ok (u, u.ctx.mul x u.xn.out.preGain) := by
      simp only [State.xnTap, hacc, Except.bind_ok', Except.pure_ok']
    have hu : u.settings = s.settings := (State.FrameKeeps.law.xnTap t c x hon _ htap).settings.trans ht
    rw [htap, State.ctx_of_settings hu, State.out_of_settings hu]
    simp only [Frame.tap, hacc, Except.bind_ok', Except.pure_ok']

end

/-- In every state with the settings of `s` the EQ of the model is `eq`. -/
def Frame.EqIs (s : State) (eq : State → Nat → F32 → Except Raised (State × F32)) : Prop :=
  ∀ t c x, t.settings = s.settings → t.pipe.L.enabled .eq = true → t.eqProc c x = eq t c x

section
variable {s t : State} {eq : State → Nat → F32 → Except Raised (State × F32)} (heq : Frame.EqIs s eq) (c : Nat)
  (x : F32) (ht : t.settings = s.settings)
include heq ht

/-- Stages 1 to 7 (rule R389). -/
theorem bracket_eq : t.bracket c x = Frame.bracket s.pipe.L eq c (t, x) := by
  have keep := State.FrameKeeps.law
  refine seq_congr (stage_eq_run ht fun _ => rfl) (keep.stage (keep.gateProc t c x)) ht fun t x ht => ?_
  refine seq_congr (stage_eq_run ht fun _ => rfl) (keep.stage (keep.agcProc t c x)) ht fun t x ht => ?_
  refine seq_congr (stage_eq_run ht fun _ => rfl) (keep.stage (keep.pitchProc t c x)) ht fun t x ht => ?_
  refine seq_congr (stage_eq_run ht fun _ => rfl) (keep.stage (keep.deessProc t c x)) ht fun t x ht => ?_
  refine seq_congr (stage_eq_run ht (heq t c x ht)) (keep.stage (keep.eqProc t c x)) ht fun t x ht => ?_
  refine seq_congr (stage_eq_run ht fun _ => compressorProc_eq ht c x) (keep.stage (keep.compressorProc t c x)) ht
    fun t x ht => ?_
  exact stage_eq_run ht fun _ => rfl

theorem oversampled_eq (hos : s.pipe.osEn = true) :
    t.oversampled c x = Frame.oversampled s.pipe.L eq c (t, x) := by
  have keep := State.FrameKeeps.law
  have hon : t.pipe.osEn = true := State.pipe_of_settings ht ▸ hos
  refine seq_congr rfl (keep.osUp t c x hon) ht fun t us ht => ?_
  refine seq_congr (bracket_eq heq c us.1 ht) (keep.bracket t c us.1) ht fun t u0 ht => ?_
  refine seq_congr (bracket_eq heq c us.2.1 ht) (keep.bracket t c us.2.1) ht fun t u1 ht => ?_
  refine seq_congr (bracket_eq heq c us.2.2.1 ht) (keep.bracket t c us.2.2.1) ht fun t u2 ht => ?_
  exact seq_congr (bracket_eq heq c us.2.2.2 ht) (keep.bracket t c us.2.2.2) ht fun t u3 ht => rfl

/-- The bracket, oversampled or not, then delay and reverb (rule R389). -/
theorem channelProc_eq : t.channelProc c x = Frame.channel s.pipe.osEn s.pipe.L eq c (t, x) := by
  have keep := State.FrameKeeps.law
  rw [State.channelProc, Frame.channel, State.pipe_of_settings ht]
  cases hos : s.pipe.osEn with
  | true =>
    have hon : t.pipe.osEn = true := State.pipe_of_settings ht ▸ hos
    exact seq_congr (oversampled_eq heq c x ht hos) (keep.oversampled t c x hon) ht fun u y hu => behind_eq c y hu
  | false => exact seq_congr (bracket_eq heq c x ht) (keep.bracket t c x) ht fun u y hu => behind_eq c y hu

end

/-! ### Passes over the words (rule R389) -/

/-- The words behind `pre`: a pass of the model writes them as the pseudocode does, in place. -/
theorem foldlM_step {f : Nat → State × F32 → Except Raised (State × F32)} (pre : List F32) (t : State) (xs : List F32) :
    (List.range' pre.length xs.length).foldlM (Frame.step f) (t, pre ++ xs) =
      forChannels (fun t c x => f c (t, x)) t pre.length xs >>= fun r => pure (r.1, pre ++ r.2) := by
  induction xs generalizing pre t with
  | nil => rfl
  | cons x xs ih =>
    have hget : (pre ++ x :: xs).getD pre.length 0 = x := by simp
    have hset (y : F32) : (pre ++ x :: xs).set pre.length y = (pre ++ [y]) ++ xs := by simp
    have hlen (y : F32) : pre.length + 1 = (pre ++ [y]).length := by simp
    rw [List.length_cons, List.range'_succ, List.foldlM_cons, Frame.step, forChannels]
    simp only [hget, bind_assoc]
    cases f pre.length (t, x) with
    | error e => rfl
    | ok q =>
      simp only [Except.bind_ok', Except.pure_ok', hset]
      rw [hlen q.2, ih]
      refine bind_congr fun r => ?_
      simp

/-- A pass over all the words, whose PROC is that of the pseudocode wherever the settings are those of the start. -/
theorem forChannels_congr {F G : State → Nat → F32 → Except Raised (State × F32)} {s t : State} {c : Nat}
    {xs : List F32} (ht : t.settings = s.settings) (hFG : ∀ u c x, u.settings = s.settings → F u c x = G u c x)
    (hkeep : ∀ u c x, u.settings = s.settings → Leads State.FrameKeeps Prod.fst u (F u c x)) :
    forChannels F t c xs = forChannels G t c xs := by
  induction xs generalizing t c with
  | nil => rfl
  | cons x xs ih =>
    refine seq_congr (hFG t c x ht) (hkeep t c x ht) ht fun u y hu => ?_
    dsimp only
    rw [ih hu]

theorem forChannels_eq_foldlM {F : State → Nat → F32 → Except Raised (State × F32)}
    {f : Nat → State × F32 → Except Raised (State × F32)} {s t : State} {n : Nat} {xs : List F32}
    (hn : xs.length = n) (ht : t.settings = s.settings)
    (hFf : ∀ u c x, u.settings = s.settings → F u c x = f c (u, x))
    (hkeep : ∀ u c x, u.settings = s.settings → Leads State.FrameKeeps Prod.fst u (F u c x)) :
    forChannels F t 0 xs = (List.range n).foldlM (Frame.step f) (t, xs) := by
  have hpass := foldlM_step (f := f) [] t xs
  rw [List.length_nil, hn, ← List.range_eq_range'] at hpass
  rw [forChannels_congr ht hFf hkeep]
  exact (hpass.trans (bind_pure _)).symm

/-- The pairs behind `pre`, written in place; a last unpaired word stays (rules R388, R389). -/
theorem foldlM_pairStep (t : State) (i : Nat) (xs pre : List F32) (hpre : pre.length = 2 * i) :
    (List.range' i (xs.length / 2)).foldlM Frame.pairStep (t, pre ++ xs) =
      widPairs t i xs >>= fun r => pure (r.1, pre ++ r.2) := by
  induction t, i, xs using widPairs.induct generalizing pre with
  | case1 t i l r xs ih =>
    have hl : (pre ++ l :: r :: xs).getD (2 * i) 0 = l := by simp [← hpre]
    have hr : (pre ++ l :: r :: xs).getD (2 * i + 1) 0 = r := by simp [← hpre]
    have hset (l' r' : F32) :
        ((pre ++ l :: r :: xs).set (2 * i) l').set (2 * i + 1) r' = (pre ++ [l', r']) ++ xs := by
      simp [← hpre]
    have hpre' (l' r' : F32) : (pre ++ [l', r']).length = 2 * (i + 1) := by
      rw [List.length_append, hpre]; rfl
    have hpairs : (l :: r :: xs).length / 2 = xs.length / 2 + 1 := Nat.add_div_right _ Nat.two_pos
    rw [hpairs, List.range'_succ, List.foldlM_cons, Frame.pairStep, widPairs]
    simp only [hl, hr, bind_assoc]
    cases t.widProc i l r with
    | error e => rfl
    | ok q =>
      simp only [Except.bind_ok', Except.pure_ok', hset]
      rw [ih q.1 _ (hpre' ..)]
      exact bind_congr fun r => by simp
  | case2 t i => rfl
  | case3 t i x => simp [widPairs]

theorem widPairs_eq_foldlM (t : State) {n : Nat} {xs : List F32} (hn : xs.length = n) :
    widPairs t 0 xs = (List.range (n / 2)).foldlM Frame.pairStep (t, xs) := by
  have hpass := foldlM_pairStep t 0 xs [] rfl
  rw [hn, ← List.range_eq_range'] at hpass
  exact (hpass.trans (bind_pure _)).symm

/-! ### The whole frame (rule R389) -/

/-- The pseudocode over the words of all channels, the supervisor first and the limiter last (rule R389). -/
def Frame.all (s : State) (xs : List F32) : Except Raised (State × List F32) := do
  let L := s.pipe.L
  let each := fun f r => (List.range s.params.nch).foldlM (Frame.step f) r
  let r ← if L.enabled .xn then each (Frame.tap s) (s, xs) else .ok (s, xs)
  let r ← each (Frame.channel s.pipe.osEn L (Frame.eq L)) r
  let r ← if L.enabled .wid then (List.range (s.params.nch / 2)).foldlM Frame.pairStep r else .ok r
  if L.enabled .lim then each (Frame.run true State.limProc) r else .ok r

/-- What a pass keeps: the settings, and the number of words. -/
theorem Gives.settings_length {s t : State} {xs : List F32} {n : Nat} {x : Except Raised (State × List F32)}
    (ht : t.settings = s.settings) (hn : xs.length = n) (hkeep : Leads State.FrameKeeps Prod.fst t x)
    (hlen : Gives (fun r => r.2.length = xs.length) x) :
    Gives (fun r => r.1.settings = s.settings ∧ r.2.length = n) x := fun a ha =>
  ⟨(hkeep a ha).settings.trans ht, (hlen a ha).trans hn⟩

/-- Two runs that agree, and what follows them where the first can lead. -/
theorem bind_congr_of_gives {α β : Type} {Q : α → Prop} {x x' : Except Raised α} {f g : α → Except Raised β}
    (hx : x = x') (hQ : Gives Q x) (hfg : ∀ a, Q a → f a = g a) : (x >>= f) = x' >>= g := by
  subst hx
  cases hx : x with
  | error e => rfl
  | ok a => exact hfg a (hQ a hx)

/-- A choice between two runs, and what follows it. -/
theorem ite_bind_eq {α β : Type} {b : Bool} {x y : Except Raised α} {f : α → Except Raised β} :
    (if b then x >>= f else y >>= f) = (if b then x else y) >>= f := by
  cases b <;> rfl

section
variable {s t : State} {xs : List F32} (ht : t.settings = s.settings) (hn : xs.length = s.params.nch)
include ht hn

/-- A pass of the model behind its enable bit is one of the pseudocode. -/
theorem stageAll_eq_foldlM {st : Stage} {F : State → Nat → F32 → Except Raised (State × F32)}
    {f : Nat → State × F32 → Except Raised (State × F32)}
    (hkeep : ∀ u c x, u.pipe.L.enabled st = true → Leads State.FrameKeeps Prod.fst u (F u c x))
    (hFf : ∀ u c x, u.settings = s.settings → u.pipe.L.enabled st = true → F u c x = f c (u, x)) :
    stageAll (t.pipe.L.enabled st) (fun s xs => forChannels F s 0 xs) t xs =
      if s.pipe.L.enabled st then (List.range s.params.nch).foldlM (Frame.step f) (t, xs) else .ok (t, xs) := by
  rw [State.pipe_of_settings ht]
  cases hon : s.pipe.L.enabled st with
  | false => rfl
  | true =>
    have hon' (u : State) (hu : u.settings = s.settings) : u.pipe.L.enabled st = true :=
      State.pipe_of_settings hu ▸ hon
    exact forChannels_eq_foldlM hn ht (fun u c x hu => hFf u c x hu (hon' u hu)) fun u c x hu => hkeep u c x (hon' u hu)

theorem widStage_eq_foldlM : stageAll (t.pipe.L.enabled .wid) (fun s xs => widPairs s 0 xs) t xs =
    if s.pipe.L.enabled .wid then (List.range (s.params.nch / 2)).foldlM Frame.pairStep (t, xs) else .ok (t, xs) := by
  rw [State.pipe_of_settings ht]
  cases s.pipe.L.enabled .wid with
  | false => rfl
  | true => exact widPairs_eq_foldlM t hn

end

/-- A frame is the pseudocode of rule R389. -/
theorem State.frameBody_eq {s : State} {xs : List F32} (hn : xs.length = s.params.nch) :
    s.frameBody xs = Frame.all s xs := by
  have keep := State.FrameKeeps.law
  have heq : Frame.EqIs s (Frame.eq s.pipe.L) := fun t c x ht hon => eqProc_eq c x ht hon
  simp only [Frame.all, ite_bind_eq]
  refine bind_congr_of_gives (stageAll_eq_foldlM rfl hn keep.xnTap fun u c x hu hon => xnTap_eq c x hu hon)
    (.settings_length rfl hn (keep.stageChannels keep.xnTap s xs) (stageAll_length (forChannels_length _ s 0 xs))) ?_
  rintro ⟨t, xs⟩ ⟨ht, hn⟩
  refine bind_congr_of_gives
    (forChannels_eq_foldlM hn ht (fun u c x hu => channelProc_eq heq c x hu) fun u c x _ => keep.channelProc u c x)
    (.settings_length ht hn (keep.channels fun u c x _ => keep.channelProc u c x) (forChannels_length _ t 0 xs)) ?_
  rintro ⟨t, xs⟩ ⟨ht, hn⟩
  refine bind_congr_of_gives (widStage_eq_foldlM ht hn)
    (.settings_length ht hn (keep.stageAll (keep.widPairs t 0 xs)) (stageAll_length (widPairs_length t 0 xs))) ?_
  rintro ⟨t, xs⟩ ⟨ht, hn⟩
  exact stageAll_eq_foldlM ht hn keep.limProc fun u c x _ _ => rfl

end Sys2Proof.Machine
end

section
/-! A frame on a block of one channel, and the PROCs of a frame as the units' own commands (rules R388, R389). -/

namespace Sys2Proof.Machine

/-! ### One channel (rules R388, R389) -/

/-- The stages of rule R388 in order, each on the word of the one before, on channel 0 and without oversampling. -/
def Frame.chain (s : State) (x : F32) : Except Raised (State × List F32) := do
  let L := s.pipe.L
  let r ← Frame.run (L.enabled .xn) State.xnTap 0 (s, x)
  let r ← Frame.run (L.enabled .gate) State.gateProc 0 r
  let r ← Frame.run (L.enabled .agc) State.agcProc 0 r
  let r ← Frame.run (L.enabled .pitch) State.pitchProc 0 r
  let r ← Frame.run (L.enabled .deess) State.deessProc 0 r
  let r ← Frame.run (L.enabled .eq) State.eqProc 0 r
  let r ← Frame.run (L.enabled .comp) (Frame.compressor L) 0 r
  let r ← Frame.run (L.enabled .sat) State.satProc 0 r
  let r ← Frame.run (L.enabled .dly) State.dlyProc 0 r
  let r ← Frame.run (L.enabled .reverb) (Frame.reverb L) 0 r
  let r ← Frame.run (L.enabled .lim) State.limProc 0 r
  pure (r.1, [r.2])

/-- A pass over one channel is its PROC on channel 0. -/
theorem forChannels_single (f : State → Nat → F32 → Except Raised (State × F32)) (s : State) (x : F32) :
    forChannels f s 0 [x] = f s 0 x >>= fun r => pure (r.1, [r.2]) := rfl

theorem stageAll_single (on : Bool) (f : State → Nat → F32 → Except Raised (State × F32)) (s : State) (x : F32) :
    stageAll on (fun s xs => forChannels f s 0 xs) s [x] = stage on f s 0 x >>= fun r => pure (r.1, [r.2]) := by
  cases on <;> rfl

/-- One channel has no pair to widen (rule R388). -/
theorem stageAll_widPairs_single (on : Bool) (s : State) (x : F32) :
    stageAll on (fun s xs => widPairs s 0 xs) s [x] = .ok (s, [x]) := by
  cases on <;> rfl

/-- A frame of one channel, by its words. -/
theorem State.frameBody_single (s : State) (x : F32) : s.frameBody [x] = (do
    let (s, x) ← stage (s.pipe.L.enabled .xn) State.xnTap s 0 x
    let (s, x) ← s.channelProc 0 x
    let (s, x) ← stage (s.pipe.L.enabled .lim) State.limProc s 0 x
    pure (s, [x])) := by
  simp only [State.frameBody, stageAll_single, forChannels_single, stageAll_widPairs_single, bind_assoc, pure_bind,
    Except.bind_ok']

/-- On one channel and without oversampling a frame is the chain of its stages (rule R388). -/
theorem State.frameBody_eq_chain {s : State} (x : F32) (hos : s.pipe.osEn = false) :
    s.frameBody [x] = Frame.chain s x := by
  have keep := State.FrameKeeps.law
  have heq : Frame.EqIs s State.eqProc := fun _ _ _ _ _ => rfl
  have hchain : Frame.chain s x = Frame.run (s.pipe.L.enabled .xn) State.xnTap 0 (s, x) >>= fun r =>
      Frame.channel s.pipe.osEn s.pipe.L State.eqProc 0 r >>= fun r =>
        Frame.run (s.pipe.L.enabled .lim) State.limProc 0 r >>= fun r => pure (r.1, [r.2]) := by
    simp only [Frame.chain, Frame.channel, hos, Frame.bracket, Frame.behind, bind_assoc, Bool.false_eq_true, if_false]
  rw [hchain, State.frameBody_single]
  refine seq_congr (stage_eq_run rfl fun _ => rfl) (keep.stage (keep.xnTap s 0 x)) rfl fun t x ht => ?_
  refine seq_congr (channelProc_eq heq 0 x ht) (keep.channelProc t 0 x) ht fun t x ht => ?_
  exact seq_congr (stage_eq_run ht fun _ => rfl) (keep.stage (keep.limProc t 0 x)) ht fun t x ht => rfl

/-! ### One stage (rules R67, R388) -/

/-- What a stage runs on a word of channel 0; the widener has no pair there. -/
def Frame.proc (L : PipeP) : Stage → State → Nat → F32 → Except Raised (State × F32)
  | .xn => State.xnTap
  | .gate => State.gateProc
  | .agc => State.agcProc
  | .pitch => State.pitchProc
  | .deess => State.deessProc
  | .eq => State.eqProc
  | .comp => Frame.compressor L
  | .sat => State.satProc
  | .dly => State.dlyProc
  | .reverb => Frame.reverb L
  | .wid => fun s _ x => .ok (s, x)
  | .lim => State.limProc

/-- The end of a PROC: its state and its word. -/
def Frame.one (r : Except Raised (State × F32)) : Except Raised (State × List Word) := r >>= fun q => pure (q.1, [q.2])

/-- With the bit of one stage set, that stage is enabled and no other (rule R67). -/
theorem PipeP.enabled_of_bit {L : PipeP} {st : Stage} (h : L.en = 1#32 <<< st.bit) (other : Stage) :
    L.enabled other = decide (other = st) := by
  rw [PipeP.enabled, h]
  cases st <;> cases other <;> rfl

/-- With one stage enabled the chain is that stage. -/
theorem Frame.chain_of_bit {s : State} {st : Stage} (x : F32) (h : s.pipe.L.en = 1#32 <<< st.bit) :
    Frame.chain s x = Frame.one (Frame.proc s.pipe.L st s 0 x) := by
  have henabled := PipeP.enabled_of_bit h
  cases st <;> simp [Frame.chain, Frame.run, Frame.one, Frame.proc, henabled]

theorem Frame.compressor_comp {L : PipeP} (h : L.selectsFet = false) : Frame.compressor L = State.compProc := by
  rw [Frame.compressor, h]; rfl

theorem Frame.compressor_fet {L : PipeP} (h : L.selectsFet = true) : Frame.compressor L = State.fetProc := by
  rw [Frame.compressor, h]; rfl

theorem Frame.reverb_rvs {L : PipeP} (h : L.selectsFdn = false) : Frame.reverb L = State.rvsProc := by
  rw [Frame.reverb, h]; rfl

theorem Frame.reverb_fdn {L : PipeP} (h : L.selectsFdn = true) : Frame.reverb L = State.fdnProc := by
  rw [Frame.reverb, h]; rfl

/-! ### The units' own commands -/

/-- A command with legal fields is what follows their check. -/
theorem conclude_legal {s : State} {legal : Bool} {r : Raised} {f : Unit → Except Raised (State × List Word)}
    (h : legal = true) : conclude s (require legal r >>= f) = conclude s (f ()) := by
  rw [h]; rfl

/-- Settles O51: the chain on one channel and its cases of one stage, the units' own commands, and the pseudocode over
all channels. -/
theorem oneStageFrameIsThatPROC : Obligations.OneStageFrameIsThatPROC := by
  refine ⟨fun s x hn hactive hblock hos => ?single, fun s ch idx x u0 u1 u2 u3 hch => ?commands,
    fun s xs hlen hactive hblock => ?frame⟩
  case single =>
    have hlegal : channelOk s.params 0 = true := by simp [channelOk, hn]
    have hframe : exec (.pipeFrame [x]) s = conclude s (Frame.chain s x) := by
      rw [exec_pipeFrame_inside (xs := [x]) hn.symm hactive hblock, State.frameBody_eq_chain x hos]
    have only {i : Instr} (st : Stage) (f : State → Nat → F32 → Except Raised (State × F32))
        (hen : s.pipe.L.en = 1#32 <<< st.bit) (hf : Frame.proc s.pipe.L st = f)
        (hi : exec i s = conclude s (Frame.one (f s 0 x))) : exec (.pipeFrame [x]) s = exec i s := by
      rw [hframe, Frame.chain_of_bit x hen, hf, hi]
    exact ⟨fun hen => only .gate State.gateProc hen rfl (conclude_legal hlegal),
      fun hen => only .agc State.agcProc hen rfl (conclude_legal hlegal),
      fun hen => only .pitch State.pitchProc hen rfl (conclude_legal hlegal),
      fun hen => only .deess State.deessProc hen rfl (conclude_legal hlegal),
      fun hen hsel => only .comp State.compProc hen (Frame.compressor_comp hsel) (conclude_legal hlegal),
      fun hen hsel => only .comp State.fetProc hen (Frame.compressor_fet hsel) (conclude_legal hlegal),
      fun hen => only .sat State.satProc hen rfl (conclude_legal hlegal),
      fun hen => only .dly State.dlyProc hen rfl (conclude_legal hlegal),
      fun hen hsel => only .reverb State.rvsProc hen (Frame.reverb_rvs hsel) (conclude_legal hlegal),
      fun hen hsel => only .reverb State.fdnProc hen (Frame.reverb_fdn hsel) (conclude_legal hlegal),
      fun hen => only .lim State.limProc hen rfl (conclude_legal hlegal), hframe⟩
  case commands =>
    have hlegal : channelOk s.params ch = true := decide_eq_true hch
    exact ⟨conclude_legal hlegal, conclude_legal hlegal, conclude_legal hlegal, conclude_legal hlegal,
      fun hidx => ⟨conclude_legal (fieldsOk_of_lt hch hidx), conclude_legal (fieldsOk_of_lt hch hidx)⟩,
      conclude_legal hlegal, conclude_legal hlegal, conclude_legal hlegal, conclude_legal hlegal,
      conclude_legal hlegal, conclude_legal hlegal, conclude_legal hlegal, conclude_legal hlegal,
      conclude_legal hlegal, conclude_legal hlegal, fun heven hpair => conclude_legal (pairOk_of_even heven hpair)⟩
  case frame =>
    exact (exec_pipeFrame_inside hlen hactive hblock).trans (congrArg (conclude s) (State.frameBody_eq hlen))

end Sys2Proof.Machine
end
